-- ==== Sys2Proof/Word.lean ====
section
/-! DEFINITION. The word types of the CHIP-8 core (spec/10_state.md R10, spec/30_encoding.md R60, R62). -/

namespace Sys2Proof

/-- One memory byte, one general register, one timer: 8 bits (R10, R40). -/
abbrev Byte := BitVec 8

/-- An opcode, the program counter, a return address: 16 bits (R60, R14, R15). -/
abbrev Word := BitVec 16

/-- A 12-bit address: the field `nnn`, the index register (R62, R13). -/
abbrev Addr := BitVec 12

/-- A 4-bit field: `x`, `y`, `n`; also the name of a general register (R62, R11). -/
abbrev Nibble := BitVec 4

end Sys2Proof
end

