-- ==== Sys2Proof/Syntax.lean ====
section
/-! DEFINITION. The instructions: one constructor per row of spec/opcode_table.json (spec/30_encoding.md R66),
in the table's order. Every operand field has exactly the width R62 gives it and is unsigned (R64). -/

namespace Sys2Proof

/-- The 40 recognised instructions (R66). A word that matches no row is no instruction: see `Decoded.unknown`. -/
inductive Instr where
  /-- `00CN` `SCD n` (R161) -/
  | scd (n : Nibble)
  /-- `00E0` `CLS` (R160) -/
  | cls
  /-- `00EE` `RET` (R103) -/
  | ret
  /-- `00FE` `LOW` (R164) -/
  | low
  /-- `00FF` `HIGH` (R163) -/
  | high
  /-- `1NNN` `JP $NNN` (R100) -/
  | jp (nnn : Addr)
  /-- `2NNN` `CALL $NNN` (R101) -/
  | call (nnn : Addr)
  /-- `3XNN` `SE Vx, $NN` (R105) -/
  | seImm (x : Nibble) (nn : Byte)
  /-- `4XNN` `SNE Vx, $NN` (R106) -/
  | sneImm (x : Nibble) (nn : Byte)
  /-- `5XY0` `SE Vx, Vy` (R107) -/
  | seReg (x y : Nibble)
  /-- `6XNN` `LD Vx, $NN` (R120) -/
  | ldImm (x : Nibble) (nn : Byte)
  /-- `7XNN` `ADD Vx, $NN` (R121) -/
  | addImm (x : Nibble) (nn : Byte)
  /-- `8XY0` `LD Vx, Vy` (R122) -/
  | ldReg (x y : Nibble)
  /-- `8XY1` `OR Vx, Vy` (R123) -/
  | orReg (x y : Nibble)
  /-- `8XY2` `AND Vx, Vy` (R124) -/
  | andReg (x y : Nibble)
  /-- `8XY3` `XOR Vx, Vy` (R125) -/
  | xorReg (x y : Nibble)
  /-- `8XY4` `ADD Vx, Vy` (R126) -/
  | addReg (x y : Nibble)
  /-- `8XY5` `SUB Vx, Vy` (R127) -/
  | subReg (x y : Nibble)
  /-- `8XY6` `SHR Vx, Vy` (R128) -/
  | shr (x y : Nibble)
  /-- `8XY7` `SUBN Vx, Vy` (R129) -/
  | subn (x y : Nibble)
  /-- `8XYE` `SHL Vx, Vy` (R130) -/
  | shl (x y : Nibble)
  /-- `9XY0` `SNE Vx, Vy` (R108) -/
  | sneReg (x y : Nibble)
  /-- `ANNN` `LD I, $NNN` (R140) -/
  | ldI (nnn : Addr)
  /-- `BNNN` `JP V0, $NNN` (R104) -/
  | jpV0 (nnn : Addr)
  /-- `CXNN` `RND Vx, $NN` (R131) -/
  | rnd (x : Nibble) (nn : Byte)
  /-- `DXYN` `DRW Vx, Vy, n` (R165) -/
  | drw (x y n : Nibble)
  /-- `EX9E` `SKP Vx` (R180) -/
  | skp (x : Nibble)
  /-- `EXA1` `SKNP Vx` (R181) -/
  | sknp (x : Nibble)
  /-- `FX07` `LD Vx, DT` (R184) -/
  | ldVxDt (x : Nibble)
  /-- `FX0A` `LD Vx, K` (R182) -/
  | ldVxK (x : Nibble)
  /-- `FX15` `LD DT, Vx` (R185) -/
  | ldDtVx (x : Nibble)
  /-- `FX18` `LD ST, Vx` (R186) -/
  | ldStVx (x : Nibble)
  /-- `FX1E` `ADD I, Vx` (R141) -/
  | addI (x : Nibble)
  /-- `FX29` `LD F, Vx` (R143) -/
  | ldF (x : Nibble)
  /-- `FX30` `LD HF, Vx` (R144) -/
  | ldHf (x : Nibble)
  /-- `FX33` `LD B, Vx` (R145) -/
  | ldB (x : Nibble)
  /-- `FX55` `LD [I], Vx` (R146) -/
  | ldMemVx (x : Nibble)
  /-- `FX65` `LD Vx, [I]` (R147) -/
  | ldVxMem (x : Nibble)
  /-- `FX75` `LD R, Vx` (R187) -/
  | ldRVx (x : Nibble)
  /-- `FX85` `LD Vx, R` (R188) -/
  | ldVxR (x : Nibble)
deriving DecidableEq, Repr

end Sys2Proof
end

