-- ==== Sys2Proof/WellFormed.lean ====
section
/-! DEFINITION. The checks on what comes into the machine from outside: instructions, ROM images, key indices. -/

namespace Sys2Proof

/-- Is an instruction's every field inside its encoding field? The fields of `Instr` have exactly the widths of
R62, no constructor relates two fields, and R64 puts no further limit on an immediate or a register index ("the
index is the 4-bit field and is always in range"), so there is nothing left to refuse. -/
def Instr.wf : Instr → Bool
  | .scd _ => true
  | .cls => true
  | .ret => true
  | .low => true
  | .high => true
  | .jp _ => true
  | .call _ => true
  | .seImm _ _ => true
  | .sneImm _ _ => true
  | .seReg _ _ => true
  | .ldImm _ _ => true
  | .addImm _ _ => true
  | .ldReg _ _ => true
  | .orReg _ _ => true
  | .andReg _ _ => true
  | .xorReg _ _ => true
  | .addReg _ _ => true
  | .subReg _ _ => true
  | .shr _ _ => true
  | .subn _ _ => true
  | .shl _ _ => true
  | .sneReg _ _ => true
  | .ldI _ => true
  | .jpV0 _ => true
  | .rnd _ _ => true
  | .drw _ _ _ => true
  | .skp _ => true
  | .sknp _ => true
  | .ldVxDt _ => true
  | .ldVxK _ => true
  | .ldDtVx _ => true
  | .ldStVx _ => true
  | .addI _ => true
  | .ldF _ => true
  | .ldHf _ => true
  | .ldB _ => true
  | .ldMemVx _ => true
  | .ldVxMem _ => true
  | .ldRVx _ => true
  | .ldVxR _ => true

/-- Does a ROM image fit beyond 0x200? At most 4096 − 0x200 = 3584 bytes (R6, R241). -/
def romFits (bytes : List Byte) : Bool := decide (bytes.length ≤ 3584)

/-- Is `k` the index of a key? `key_down` and `key_up` are guarded against any other index (R215). -/
def keyIndexOk (k : Int) : Bool := decide (0 ≤ k ∧ k ≤ 15)

end Sys2Proof
end

