-- ==== Sys2Proof/Decode.lean ====
section
/-! DEFINITION. Decoding and encoding (spec/30_encoding.md R60 to R71, spec/40_cycle_fetch_decode.md R85), and the
opcode table as mask and match (R66). The decoder dispatches "on the top nibble, then further nibbles/byte as
needed" (R65); the table is kept beside it as a second, independent reading of R66. -/

namespace Sys2Proof

/-- What a word decodes to: the instruction of the one row that matches, or `Unknown` with the word (R65, R88). -/
inductive Decoded where
  | instr (i : Instr)
  | unknown (op : Word)
deriving DecidableEq, Repr

/-- `t = op[15:12]` (R62) -/
def fieldT (op : Word) : Nibble := op.extractLsb' 12 4

/-- `x = op[11:8]` (R62) -/
def fieldX (op : Word) : Nibble := op.extractLsb' 8 4

/-- `y = op[7:4]` (R62) -/
def fieldY (op : Word) : Nibble := op.extractLsb' 4 4

/-- `n = op[3:0]` (R62) -/
def fieldN (op : Word) : Nibble := op.extractLsb' 0 4

/-- `nn = op[7:0]` (R62) -/
def fieldNN (op : Word) : Byte := op.extractLsb' 0 8

/-- `nnn = op[11:0]` (R62) -/
def fieldNNN (op : Word) : Addr := op.extractLsb' 0 12

/-- The words `0NNN`: only `00CN`, `00E0`, `00EE`, `00FE`, `00FF` are recognised (R66, R68). -/
def decodeSystem (op : Word) : Decoded :=
  if fieldX op ≠ 0 then .unknown op
  else if fieldY op = 0xC then .instr (.scd (fieldN op))
  else match (fieldNN op).toNat with
    | 0xE0 => .instr .cls
    | 0xEE => .instr .ret
    | 0xFE => .instr .low
    | 0xFF => .instr .high
    | _ => .unknown op

/-- The words `8XYf`: the low nibble selects the operation (R66, R69). -/
def decodeAlu (op : Word) : Decoded :=
  match (fieldN op).toNat with
  | 0x0 => .instr (.ldReg (fieldX op) (fieldY op))
  | 0x1 => .instr (.orReg (fieldX op) (fieldY op))
  | 0x2 => .instr (.andReg (fieldX op) (fieldY op))
  | 0x3 => .instr (.xorReg (fieldX op) (fieldY op))
  | 0x4 => .instr (.addReg (fieldX op) (fieldY op))
  | 0x5 => .instr (.subReg (fieldX op) (fieldY op))
  | 0x6 => .instr (.shr (fieldX op) (fieldY op))
  | 0x7 => .instr (.subn (fieldX op) (fieldY op))
  | 0xE => .instr (.shl (fieldX op) (fieldY op))
  | _ => .unknown op

/-- The words `EXff` (R66, R69). -/
def decodeKey (op : Word) : Decoded :=
  match (fieldNN op).toNat with
  | 0x9E => .instr (.skp (fieldX op))
  | 0xA1 => .instr (.sknp (fieldX op))
  | _ => .unknown op

/-- The words `FXff` (R66, R69). -/
def decodeMisc (op : Word) : Decoded :=
  match (fieldNN op).toNat with
  | 0x07 => .instr (.ldVxDt (fieldX op))
  | 0x0A => .instr (.ldVxK (fieldX op))
  | 0x15 => .instr (.ldDtVx (fieldX op))
  | 0x18 => .instr (.ldStVx (fieldX op))
  | 0x1E => .instr (.addI (fieldX op))
  | 0x29 => .instr (.ldF (fieldX op))
  | 0x30 => .instr (.ldHf (fieldX op))
  | 0x33 => .instr (.ldB (fieldX op))
  | 0x55 => .instr (.ldMemVx (fieldX op))
  | 0x65 => .instr (.ldVxMem (fieldX op))
  | 0x75 => .instr (.ldRVx (fieldX op))
  | 0x85 => .instr (.ldVxR (fieldX op))
  | _ => .unknown op

/-- Decode one opcode: total on the 65536 words (R65, R85). It reads nothing but the word (R71). -/
def decodeWord (op : Word) : Decoded :=
  match (fieldT op).toNat with
  | 0x0 => decodeSystem op
  | 0x1 => .instr (.jp (fieldNNN op))
  | 0x2 => .instr (.call (fieldNNN op))
  | 0x3 => .instr (.seImm (fieldX op) (fieldNN op))
  | 0x4 => .instr (.sneImm (fieldX op) (fieldNN op))
  | 0x5 => if fieldN op = 0 then .instr (.seReg (fieldX op) (fieldY op)) else .unknown op
  | 0x6 => .instr (.ldImm (fieldX op) (fieldNN op))
  | 0x7 => .instr (.addImm (fieldX op) (fieldNN op))
  | 0x8 => decodeAlu op
  | 0x9 => if fieldN op = 0 then .instr (.sneReg (fieldX op) (fieldY op)) else .unknown op
  | 0xA => .instr (.ldI (fieldNNN op))
  | 0xB => .instr (.jpV0 (fieldNNN op))
  | 0xC => .instr (.rnd (fieldX op) (fieldNN op))
  | 0xD => .instr (.drw (fieldX op) (fieldY op) (fieldN op))
  | 0xE => decodeKey op
  | _ => decodeMisc op

/-- The word of two bytes in memory, high byte first (R42, R61). -/
def wordOfBytes (hi lo : Byte) : Word := hi ++ lo

/-- The byte of a word that lies at the lower address (R42, R61). -/
def highByte (op : Word) : Byte := op.extractLsb' 8 8

/-- The byte of a word that lies at the higher address (R42, R61). -/
def lowByte (op : Word) : Byte := op.extractLsb' 0 8

/-- Decode the two bytes of an opcode as they lie in memory, the byte at the lower address first (R61). -/
def decode (first second : Byte) : Decoded := decodeWord (wordOfBytes first second)

/-- What the decoder reads from an opcode whose bits are `w`, numbered as spec/opcode_table.json numbers them (one
16-bit word, bit 0 least significant; bits above `nbits` are 0): the word is laid out as memory holds it, high byte
first, and given to `decode`. -/
def decodeTableWord (nbits w : Nat) : Option Instr :=
  match decode (highByte (BitVec.ofNat 16 (w % 2 ^ nbits))) (lowByte (BitVec.ofNat 16 (w % 2 ^ nbits))) with
  | .instr i => some i
  | .unknown _ => none

/-- The word of an instruction, from the patterns of R66 and the formats of R63. -/
def encode : Instr → Word
  | .scd n => 0x00C#12 ++ n
  | .cls => 0x00E0#16
  | .ret => 0x00EE#16
  | .low => 0x00FE#16
  | .high => 0x00FF#16
  | .jp nnn => 0x1#4 ++ nnn
  | .call nnn => 0x2#4 ++ nnn
  | .seImm x nn => 0x3#4 ++ x ++ nn
  | .sneImm x nn => 0x4#4 ++ x ++ nn
  | .seReg x y => 0x5#4 ++ x ++ y ++ 0x0#4
  | .ldImm x nn => 0x6#4 ++ x ++ nn
  | .addImm x nn => 0x7#4 ++ x ++ nn
  | .ldReg x y => 0x8#4 ++ x ++ y ++ 0x0#4
  | .orReg x y => 0x8#4 ++ x ++ y ++ 0x1#4
  | .andReg x y => 0x8#4 ++ x ++ y ++ 0x2#4
  | .xorReg x y => 0x8#4 ++ x ++ y ++ 0x3#4
  | .addReg x y => 0x8#4 ++ x ++ y ++ 0x4#4
  | .subReg x y => 0x8#4 ++ x ++ y ++ 0x5#4
  | .shr x y => 0x8#4 ++ x ++ y ++ 0x6#4
  | .subn x y => 0x8#4 ++ x ++ y ++ 0x7#4
  | .shl x y => 0x8#4 ++ x ++ y ++ 0xE#4
  | .sneReg x y => 0x9#4 ++ x ++ y ++ 0x0#4
  | .ldI nnn => 0xA#4 ++ nnn
  | .jpV0 nnn => 0xB#4 ++ nnn
  | .rnd x nn => 0xC#4 ++ x ++ nn
  | .drw x y n => 0xD#4 ++ x ++ y ++ n
  | .skp x => 0xE#4 ++ x ++ 0x9E#8
  | .sknp x => 0xE#4 ++ x ++ 0xA1#8
  | .ldVxDt x => 0xF#4 ++ x ++ 0x07#8
  | .ldVxK x => 0xF#4 ++ x ++ 0x0A#8
  | .ldDtVx x => 0xF#4 ++ x ++ 0x15#8
  | .ldStVx x => 0xF#4 ++ x ++ 0x18#8
  | .addI x => 0xF#4 ++ x ++ 0x1E#8
  | .ldF x => 0xF#4 ++ x ++ 0x29#8
  | .ldHf x => 0xF#4 ++ x ++ 0x30#8
  | .ldB x => 0xF#4 ++ x ++ 0x33#8
  | .ldMemVx x => 0xF#4 ++ x ++ 0x55#8
  | .ldVxMem x => 0xF#4 ++ x ++ 0x65#8
  | .ldRVx x => 0xF#4 ++ x ++ 0x75#8
  | .ldVxR x => 0xF#4 ++ x ++ 0x85#8

/-- One row of the opcode table: a word `w` selects it when `(w & mask) == match` (R66). -/
structure OpcodeRow where
  mask : Word
  pattern : Word
deriving DecidableEq, Repr

/-- Does the word select the row? (R66) -/
def OpcodeRow.selects (r : OpcodeRow) (op : Word) : Bool := decide (op &&& r.mask = r.pattern)

/-- The row of R66's table that an instruction stands in. -/
def rowOf : Instr → OpcodeRow
  | .scd _ => ⟨0xFFF0, 0x00C0⟩
  | .cls => ⟨0xFFFF, 0x00E0⟩
  | .ret => ⟨0xFFFF, 0x00EE⟩
  | .low => ⟨0xFFFF, 0x00FE⟩
  | .high => ⟨0xFFFF, 0x00FF⟩
  | .jp _ => ⟨0xF000, 0x1000⟩
  | .call _ => ⟨0xF000, 0x2000⟩
  | .seImm _ _ => ⟨0xF000, 0x3000⟩
  | .sneImm _ _ => ⟨0xF000, 0x4000⟩
  | .seReg _ _ => ⟨0xF00F, 0x5000⟩
  | .ldImm _ _ => ⟨0xF000, 0x6000⟩
  | .addImm _ _ => ⟨0xF000, 0x7000⟩
  | .ldReg _ _ => ⟨0xF00F, 0x8000⟩
  | .orReg _ _ => ⟨0xF00F, 0x8001⟩
  | .andReg _ _ => ⟨0xF00F, 0x8002⟩
  | .xorReg _ _ => ⟨0xF00F, 0x8003⟩
  | .addReg _ _ => ⟨0xF00F, 0x8004⟩
  | .subReg _ _ => ⟨0xF00F, 0x8005⟩
  | .shr _ _ => ⟨0xF00F, 0x8006⟩
  | .subn _ _ => ⟨0xF00F, 0x8007⟩
  | .shl _ _ => ⟨0xF00F, 0x800E⟩
  | .sneReg _ _ => ⟨0xF00F, 0x9000⟩
  | .ldI _ => ⟨0xF000, 0xA000⟩
  | .jpV0 _ => ⟨0xF000, 0xB000⟩
  | .rnd _ _ => ⟨0xF000, 0xC000⟩
  | .drw _ _ _ => ⟨0xF000, 0xD000⟩
  | .skp _ => ⟨0xF0FF, 0xE09E⟩
  | .sknp _ => ⟨0xF0FF, 0xE0A1⟩
  | .ldVxDt _ => ⟨0xF0FF, 0xF007⟩
  | .ldVxK _ => ⟨0xF0FF, 0xF00A⟩
  | .ldDtVx _ => ⟨0xF0FF, 0xF015⟩
  | .ldStVx _ => ⟨0xF0FF, 0xF018⟩
  | .addI _ => ⟨0xF0FF, 0xF01E⟩
  | .ldF _ => ⟨0xF0FF, 0xF029⟩
  | .ldHf _ => ⟨0xF0FF, 0xF030⟩
  | .ldB _ => ⟨0xF0FF, 0xF033⟩
  | .ldMemVx _ => ⟨0xF0FF, 0xF055⟩
  | .ldVxMem _ => ⟨0xF0FF, 0xF065⟩
  | .ldRVx _ => ⟨0xF0FF, 0xF075⟩
  | .ldVxR _ => ⟨0xF0FF, 0xF085⟩

/-- The 40 rows of the opcode table, in its order: each constructor's row, named once (R66). -/
def opcodeTable : List OpcodeRow :=
  [.scd 0, .cls, .ret, .low, .high, .jp 0, .call 0, .seImm 0 0, .sneImm 0 0, .seReg 0 0].map rowOf ++
  [.ldImm 0 0, .addImm 0 0, .ldReg 0 0, .orReg 0 0, .andReg 0 0, .xorReg 0 0, .addReg 0 0, .subReg 0 0].map rowOf ++
  [.shr 0 0, .subn 0 0, .shl 0 0, .sneReg 0 0, .ldI 0, .jpV0 0, .rnd 0 0, .drw 0 0 0, .skp 0, .sknp 0].map rowOf ++
  [.ldVxDt 0, .ldVxK 0, .ldDtVx 0, .ldStVx 0, .addI 0, .ldF 0, .ldHf 0, .ldB 0].map rowOf ++
  [.ldMemVx 0, .ldVxMem 0, .ldRVx 0, .ldVxR 0].map rowOf

end Sys2Proof
end

