-- ==== Sys2Proof/Config.lean ====
section
/-! DEFINITION. What the spec leaves open as a parameter (spec/00_scope.md R7), and the free values. Each
`opaque` below has no body of the model's: nothing in Lean can evaluate it, so a theorem holds for every value. -/

namespace Sys2Proof

/-- The three quirk flags of the parameter `QUIRKS` (R23): configuration, constant over a run. -/
structure Quirks where
  /-- set: `8XY6` and `8XYE` shift `V[x]`; clear: they shift `V[y]` -/
  shiftVx : Bool
  /-- set: `FX55` and `FX65` add x + 1 to I -/
  loadStoreInc : Bool
  /-- set: `BNNN` adds `V[0]`; clear: it adds `V[x]` -/
  jumpV0 : Bool
deriving DecidableEq, Repr, Inhabited

/-- The quirk flags a core is built with: OPEN, the spec gives no default (R7, R23, D7). Log entry 5. -/
opaque Config.quirks : Quirks

/-- `HIRES_FONT_ADDR`: what `FX30` loads into I, an uninterpreted function (R144, D10). Log entry 7. -/
opaque Config.hiresFontAddr : Byte → Addr

/-- The free draws of `CXNN`, one for each value of the draw counter (R131, D16). Log entry 4. -/
opaque Config.freeByte : Nat → Byte

/-- The free value of `draw_flag` after a reset, one for each value of the draw counter (R27, D6). Log entry 3. -/
opaque Config.freeBit : Nat → Bool

/-- Is a sprite height above 9 printed in disassembly text as two decimal digits, or as one hexadecimal digit: not
shown in the spec (R72, N18). Log entry 16. -/
opaque Config.countDecimal : Bool

end Sys2Proof
end

