-- ==== Sys2Proof/Machine/Font.lean ====
section
/-! DEFINITION. The parameter `FONT[0..79]` (spec/10_state.md R24, spec/00_scope.md R7): its type, its default table,
and the memory contents after reset that it gives (R27, R41). -/

namespace Sys2Proof.Machine

/-- A font: 16 glyphs of 5 bytes, glyph d at `FONT[5d]` to `FONT[5d + 4]`, top row first (R24). -/
abbrev Font := Vector Byte 80

/-- The bytes of the default table of R24, glyph 0 first. PRESUMED; log entry 1. -/
def defaultGlyphs : List Byte :=
  [0xF0, 0x90, 0x90, 0x90, 0xF0] ++ [0x20, 0x60, 0x20, 0x20, 0x70] ++
  [0xF0, 0x10, 0xF0, 0x80, 0xF0] ++ [0xF0, 0x10, 0xF0, 0x10, 0xF0] ++
  [0x90, 0x90, 0xF0, 0x10, 0x10] ++ [0xF0, 0x80, 0xF0, 0x10, 0xF0] ++
  [0xF0, 0x80, 0xF0, 0x90, 0xF0] ++ [0xF0, 0x10, 0x20, 0x40, 0x40] ++
  [0xF0, 0x90, 0xF0, 0x90, 0xF0] ++ [0xF0, 0x90, 0xF0, 0x10, 0xF0] ++
  [0xF0, 0x90, 0xF0, 0x90, 0x90] ++ [0xE0, 0x90, 0xE0, 0x90, 0xE0] ++
  [0xF0, 0x80, 0x80, 0x80, 0xF0] ++ [0xE0, 0x90, 0x90, 0x90, 0xE0] ++
  [0xF0, 0x80, 0xF0, 0x80, 0xF0] ++ [0xF0, 0x80, 0xF0, 0x80, 0x80]

/-- The default of the parameter `FONT` (R24, D23). -/
def defaultFont : Font := ⟨defaultGlyphs.toArray, rfl⟩

/-- What an address of memory holds after reset: the font at 0x000 to 0x04F and 0 above it (R41, R27). Log entries 1
and 2. -/
def resetByte (f : Font) (a : Nat) : Byte := f[a]?.getD 0

end Sys2Proof.Machine
end

