-- ==== Sys2Proof/Machine/State.lean ====
section
/-! DEFINITION. The whole state of the core as plain data (spec/10_state.md R10), the reasons a cycle records a
fault, and the state after reset (R27). -/

namespace Sys2Proof.Machine

/-- The five fault causes of R201. On this hardware a fault is an EFFECT the spec describes (R203): the cycle answers
a NEXT state that holds the fault record, so a constructor here is recorded in `State.fault` by `State.raiseFault`
and no step of the model ends in `Host.Outcome.fault`. Faulting where the source may have wrapped or clamped is safe
(D1: "toward unprovable"). -/
inductive Fault where
  /-- code 1, raised by the fetch of any cycle when PC > 0xFFE (R44); safe -/
  | fetchOutOfRange
  /-- code 2, raised by `DXYN`, `FX33`, `FX55`, `FX65` on an address I + k above 0xFFF (R45); safe -/
  | memOutOfRange
  /-- code 3, raised by `2NNN` with SP = 16 (R202); safe -/
  | stackOverflow
  /-- code 4, raised by `00EE` with SP = 0 (R202); safe -/
  | stackUnderflow
  /-- code 5, raised by `EX9E`, `EXA1`, `FX29` with V[x] > 0x0F (R201, D9); safe -/
  | operandOutOfRange
deriving DecidableEq, Repr

/-- The reasons an instruction could be refused. No step of the model refuses. -/
inductive Refusal where
  /-- raised by an arm of `exec` that has no meaning yet; safe. No arm is left. -/
  | notModelled (mnemonic : String)
deriving DecidableEq, Repr

/-- The `fault` record (R22): `none` is code 0, no fault recorded. -/
structure FaultRecord where
  /-- `fault.code` -/
  code : Option Fault
  /-- `fault.pc`: the address the faulting instruction was, or was to be, fetched from -/
  pc : Word
  /-- `fault.op`: the opcode, or 0 for a fetch fault -/
  op : Word
deriving DecidableEq, Repr

/-- The state of the core (R10), with the host's inputs a cycle reads (R23, R25) and the model's own draw counter. -/
structure State where
  /-- `memory` (R40): the bytes that differ from the reset contents, addresses strictly rising -/
  mem : List Host.Cell
  /-- `V[0]` to `V[15]` (R11) -/
  v : Vector Byte 16
  /-- `I` (R13) -/
  index : Addr
  /-- `PC` (R14) -/
  pc : Word
  /-- `SP` (R15): the number of return addresses held, 0 to 16 -/
  sp : Fin 17
  /-- `stack[0]` to `stack[15]` (R15) -/
  stack : Vector Word 16
  /-- `DT`, the delay timer (R16) -/
  dt : Byte
  /-- `ST`, the sound timer (R16) -/
  st : Byte
  /-- `display` (R17): 32 rows of 64 pixels; bit c of row r is `display[r][c]` -/
  display : Vector (BitVec 64) 32
  /-- `keys[0]` to `keys[15]` (R18): true = pressed -/
  keys : Vector Bool 16
  /-- `waiting_for_key` (R19) -/
  waitingForKey : Bool
  /-- `key_register` (R19) -/
  keyRegister : Nibble
  /-- `hires`, inert (R20) -/
  hires : Bool
  /-- `draw_flag` (R21) -/
  drawFlag : Bool
  /-- `fault` (R22) -/
  fault : FaultRecord
  /-- the parameter `QUIRKS` (R23), constant over a run; log entry 5 -/
  quirks : Quirks
  /-- the parameter `FONT` (R24), constant over a run; log entry 1 -/
  font : Font
  /-- the host's input `paused` (R25); log entry 6 -/
  paused : Bool
  /-- THE MODEL'S OWN, not the spec's: how many free values have been drawn; log entry 4 -/
  freeDraws : Nat
deriving DecidableEq, Repr

/-- What one cycle, one instruction answers. -/
abbrev Result := Host.Outcome State Fault Refusal

/-- The reset values of R27. `FONT` is a parameter (R24), and reset does not touch `QUIRKS` and `paused` (R23, R25), so
they are arguments;
`draw_flag` is unspecified (D6): the free value of the draw counter `k`, which the reset advances. -/
def State.resetWith (f : Font) (q : Quirks) (paused : Bool) (k : Nat) : State where
  mem := []
  v := Vector.replicate 16 0
  index := 0
  pc := 0x0200
  sp := 0
  stack := Vector.replicate 16 0
  dt := 0
  st := 0
  display := Vector.replicate 32 0
  keys := Vector.replicate 16 false
  waitingForKey := false
  keyRegister := 0
  hires := false
  drawFlag := Config.freeBit k
  fault := ⟨none, 0, 0⟩
  quirks := q
  font := f
  paused := paused
  freeDraws := k + 1

/-- The core as first made, which is "in exactly the state `reset()` produces" (R242): `FONT` is its default table (log
entry 1), the quirk flags are the open parameter (log entry 5), `paused` is clear (log entry 6), nothing has been drawn. -/
def State.reset : State := State.resetWith defaultFont Config.quirks false 0

end Sys2Proof.Machine
end

