-- ==== Sys2Proof/Machine/Memory.lean ====
section
/-! DEFINITION. Memory: 4096 bytes (spec/20_memory.md R40, R41), reading and writing one byte, and a run of bytes in
ascending address order (R46). Memory is a list of the bytes that differ from the reset contents the font `f` gives,
in one canonical form. -/

namespace Sys2Proof.Machine

/-- Memory as plain data: (address, byte) pairs. -/
abbrev Memory := List Host.Cell

/-- 4096 bytes, addresses 0x000 to 0xFFF (R40). -/
def memSize : Nat := 4096

/-- `MemRead(a, 1)` (R8, R48 (c)): the latest byte written at `a`, or its reset contents. No instruction reads above
0xFFF: each checks its whole range first (R45). -/
def Memory.read (f : Font) : Memory → Nat → Byte
  | [], a => resetByte f a
  | (a', b) :: m, a => if a = a' then b else Memory.read f m a

/-- Remove every entry of address `a`. -/
def Memory.erase (m : Memory) (a : Nat) : Memory := m.filter fun c => c.1 != a

/-- Put an entry before the first entry of a higher address. -/
def Memory.insert (a : Nat) (b : Byte) : Memory → Memory
  | [] => [(a, b)]
  | c :: m => if a < c.1 then (a, b) :: c :: m else c :: Memory.insert a b m

/-- `MemWrite(a, 1, b)` (R8). Writing the byte an unlisted address reads as removes the entry. An address above 0xFFF
does not exist and is not written; no instruction gets that far (R45). -/
def Memory.write (f : Font) (m : Memory) (a : Nat) (b : Byte) : Memory :=
  if memSize ≤ a then m
  else if b = resetByte f a then Memory.erase m a
  else Memory.insert a b (Memory.erase m a)

/-- Write the bytes at `a`, `a + 1`, … in ascending address order (R46). -/
def Memory.writeBytes (f : Font) (m : Memory) (a : Nat) : List Byte → Memory
  | [] => m
  | b :: bs => Memory.writeBytes f (Memory.write f m a b) (a + 1) bs

/-- The canonical form from address `lo` upward: addresses strictly rising and below 0x1000, no entry equal to what
an unlisted address reads as. -/
def Memory.wfFrom (f : Font) (lo : Nat) : Memory → Bool
  | [] => true
  | (a, b) :: m => decide (lo ≤ a) && decide (a < memSize) && (b != resetByte f a) && Memory.wfFrom f (a + 1) m

/-- The canonical form of memory. -/
def Memory.wf (f : Font) (m : Memory) : Bool := Memory.wfFrom f 0 m

end Sys2Proof.Machine
end

