-- ==== Sys2Proof/Machine/Ops.lean ====
section
/-! DEFINITION. The named operations over the state: general registers, the program counter and skips, the stack,
taking a fault, the fetch, the unknown opcode, the key-wait scan. Meanings are written over these. -/

namespace Sys2Proof.Machine

/-- The number of a fault cause (R201). -/
def Fault.number : Fault → BitVec 3
  | .fetchOutOfRange => 1
  | .memOutOfRange => 2
  | .stackOverflow => 3
  | .stackUnderflow => 4
  | .operandOutOfRange => 5

/-- `fault.code` as the 3-bit number of R22 and R201: 0 when no fault is recorded. -/
def FaultRecord.number (f : FaultRecord) : BitVec 3 :=
  match f.code with
  | none => 0
  | some c => c.number

/-- Is a fault recorded, `fault.code != 0`? -/
def State.faulted (s : State) : Bool := s.fault.code.isSome

/-- `V[x]`. None of the 16 registers is hardwired (R11). -/
def State.reg (s : State) (x : Nibble) : Byte := s.v[x.toNat]'x.isLt

/-- `V[x] <- b` (R11). -/
def State.setReg (s : State) (x : Nibble) (b : Byte) : State := { s with v := s.v.set x.toNat b x.isLt }

/-- The byte of memory at address `a`. -/
def State.byte (s : State) (a : Nat) : Byte := Memory.read s.font s.mem a

/-- Store bytes at `a`, `a + 1`, … -/
def State.store (s : State) (a : Nat) (bs : List Byte) : State := { s with mem := Memory.writeBytes s.font s.mem a bs }

/-- `I <- a` (R13). -/
def State.setIndex (s : State) (a : Addr) : State := { s with index := a }

/-- `PC <- target`, unchecked (R102). -/
def State.jump (s : State) (target : Word) : State := { s with pc := target }

/-- The advance of the fetch, `PC <- PC + 2` (R84). -/
def State.advance (s : State) : State := { s with pc := s.pc + 2 }

/-- The advance of the fetch, and a further 2 when a skip is taken (R14, R102). -/
def State.advanceSkip (s : State) (taken : Bool) : State := if taken then s.advance.advance else s.advance

/-- The display pixel `display[row][col]` (R17); false outside the grid. -/
def State.pixel (s : State) (row col : Nat) : Bool := (s.display[row]?.getD 0).getLsbD col

/-- Write the display and set `draw_flag` (R162). -/
def State.draw (s : State) (d : Vector (BitVec 64) 32) : State := { s with display := d, drawFlag := true }

/-- `keys[k]` (R18). -/
def State.keyPressed (s : State) (k : Nat) : Bool := s.keys[k]?.getD false

/-- Push a return address: store at `stack[SP]`, then increment (R101). -/
def State.push (s : State) (a : Word) (h : s.sp.val < 16) : State :=
  { s with stack := s.stack.set s.sp.val a h, sp := ⟨s.sp.val + 1, Nat.succ_lt_succ h⟩ }

/-- Pop a return address into PC: decrement, then read `stack[SP]` (R103). The popped entry stays (R15). -/
def State.pop (s : State) (h : 0 < s.sp.val) : State :=
  { s with
    sp := ⟨s.sp.val - 1, Nat.lt_of_le_of_lt (Nat.sub_le _ _) s.sp.isLt⟩
    pc := s.stack[s.sp.val - 1]'(Nat.lt_of_lt_of_le (Nat.sub_one_lt (Nat.ne_of_gt h)) (Nat.le_of_lt_succ s.sp.isLt)) }

/-- Take a fault (R203). `s` is the state BEFORE the cycle, so every write of the cycle is discarded, the fetch's
advance too, and PC still points at the faulting instruction; only the record is written. Control goes nowhere:
there is no handler, no saved status and no return from a fault (R203, R204); `hostReset` and a successful `loadRom`
clear the record. -/
def State.raiseFault (s : State) (c : Fault) (op : Word) : State := { s with fault := ⟨some c, s.pc, op⟩ }

/-- The fetch's word, or none when PC > 0xFFE (R44, R84). Any PC up to 0xFFE will do, odd ones included (R43). -/
def fetch (s : State) : Option Word :=
  if 0xFFE < s.pc.toNat then none
  else some (wordOfBytes (s.byte s.pc.toNat) (s.byte (s.pc.toNat + 1)))

/-- A fetch outside memory: fault 1 with `fault.op` 0 (R44, R201). -/
def fetchFault (s : State) : State := s.raiseFault .fetchOutOfRange 0

/-- An unknown opcode: no state is written and PC keeps the fetch's advance (R88). -/
def execUnknown (s : State) : State := s.advance

/-- The smallest index of a pressed key, if any is pressed (R183). -/
def firstKey (s : State) : Option Nat := (List.range 16).find? fun k => s.keyPressed k

/-- The key-wait scan that a cycle performs instead of an instruction (R183). -/
def keyWaitScan (s : State) : State :=
  match firstKey s with
  | some k => { s.setReg s.keyRegister (BitVec.ofNat 8 k) with waitingForKey := false }
  | none => s

end Sys2Proof.Machine
end

