-- ==== Sys2Proof/Machine/Operands.lean ====
section
/-! DEFINITION. The operand forms beyond a plain register or immediate (spec/30_encoding.md R64): the operand a quirk
flag selects (spec/10_state.md R23), index plus offset (spec/43_index_memory.md R142), a digit or key number. -/

namespace Sys2Proof.Machine

/-- The source operand of `8XY6` and `8XYE`: `V[x]` if `Q.shift_vx` else `V[y]` (R128, D8). -/
def State.shiftSource (s : State) (x y : Nibble) : Byte := if s.quirks.shiftVx then s.reg x else s.reg y

/-- The register added by `BNNN`: `V[0]` if `Q.jump_v0` else `V[x]`, x the top nibble of `nnn` (R104). -/
def State.jumpOffset (s : State) (nnn : Addr) : Byte :=
  if s.quirks.jumpV0 then s.reg 0 else s.reg (nnn.extractLsb' 8 4)

/-- The target of `BNNN`: 16 bits, not masked to 12 (R104, D4). -/
def State.jumpTarget (s : State) (nnn : Addr) : Word := nnn.setWidth 16 + (s.jumpOffset nnn).setWidth 16

/-- The effective address `I + k`: exact, not masked to 12 bits (R142). -/
def State.effAddr (s : State) (k : Nat) : Nat := s.index.toNat + k

/-- Is the last address of an access, `I + k`, inside memory? (R45, R142) -/
def State.inRange (s : State) (k : Nat) : Bool := decide (s.effAddr k ≤ 0xFFF)

/-- `I` after `FX55` and `FX65`: `(I + x + 1) & 0xFFF` if `Q.load_store_inc`, else unchanged (R146, R147). -/
def State.indexAfterBlock (s : State) (x : Nibble) : Addr :=
  if s.quirks.loadStoreInc then BitVec.ofNat 12 (s.index.toNat + x.toNat + 1) else s.index

/-- Is `V[x]` a digit or key number, 0 to 15? (R143, R180, R181) -/
def State.isDigit (s : State) (x : Nibble) : Bool := decide ((s.reg x).toNat ≤ 15)

/-- `V[0]` to `V[x]`, in ascending order: what `FX55` stores (R146). -/
def State.regsUpTo (s : State) (x : Nibble) : List Byte := s.v.toList.take (x.toNat + 1)

/-- The registers after `FX65`: `V[i] <- MemRead(I + i, 1)` for i up to x, the others unchanged (R147). -/
def State.loadedRegs (s : State) (x : Nibble) : Vector Byte 16 :=
  Vector.ofFn fun i => if i.val ≤ x.toNat then s.byte (s.effAddr i.val) else s.v[i.val]

/-- The three decimal digits of a byte, hundreds first (R145). -/
def decimalDigits (b : Byte) : List Byte :=
  [BitVec.ofNat 8 (b.toNat / 100), BitVec.ofNat 8 (b.toNat / 10 % 10), BitVec.ofNat 8 (b.toNat % 10)]

end Sys2Proof.Machine
end

