-- ==== Sys2Proof/Machine/ControlFlow.lean ====
section
/-! DEFINITION. The meanings of the control transfer instructions (spec/41_control_flow.md). Each meaning starts from the state before the
cycle (PC = PC0) and includes the fetch's advance (log entry 10). -/

namespace Sys2Proof.Machine

/-- `00EE` `RET` (R103): fault 4 with SP = 0, else pop into PC. -/
def execRet (s : State) : Result :=
  if h : 0 < s.sp.val then .next (s.pop h) else .next (s.raiseFault .stackUnderflow (encode .ret))

/-- `1NNN` `JP $NNN` (R100). -/
def execJp (nnn : Addr) (s : State) : Result := .next (s.jump (nnn.setWidth 16))

/-- `2NNN` `CALL $NNN` (R101): fault 3 with SP = 16, else push PC0 + 2 and jump. -/
def execCall (nnn : Addr) (s : State) : Result :=
  if h : s.sp.val < 16 then .next ((s.push (s.pc + 2) h).jump (nnn.setWidth 16))
  else .next (s.raiseFault .stackOverflow (encode (.call nnn)))

/-- `3XNN` `SE Vx, $NN` (R105). -/
def execSeImm (x : Nibble) (nn : Byte) (s : State) : Result := .next (s.advanceSkip (decide (s.reg x = nn)))

/-- `4XNN` `SNE Vx, $NN` (R106). -/
def execSneImm (x : Nibble) (nn : Byte) (s : State) : Result := .next (s.advanceSkip (decide (s.reg x ≠ nn)))

/-- `5XY0` `SE Vx, Vy` (R107). -/
def execSeReg (x y : Nibble) (s : State) : Result := .next (s.advanceSkip (decide (s.reg x = s.reg y)))

/-- `9XY0` `SNE Vx, Vy` (R108). -/
def execSneReg (x y : Nibble) (s : State) : Result := .next (s.advanceSkip (decide (s.reg x ≠ s.reg y)))

/-- `BNNN` `JP V0, $NNN` (R104). -/
def execJpV0 (nnn : Addr) (s : State) : Result := .next (s.jump (s.jumpTarget nnn))

end Sys2Proof.Machine
end

