-- ==== Sys2Proof/Machine/Blitter.lean ====
section
/-! DEFINITION. The shared display operations: clearing, scrolling down, and the sprite blitter `draw_sprite` of
spec/44_display.md R165. A row of the display is a 64-bit vector whose bit c is column c (log entry 14). -/

namespace Sys2Proof.Machine

/-- The display with every pixel 0 (R160). -/
def blankDisplay : Vector (BitVec 64) 32 := Vector.replicate 32 0

/-- The display scrolled down by n rows: rows off the bottom are discarded, the top n rows are 0 (R161). -/
def scrollDown (d : Vector (BitVec 64) 32) (n : Nat) : Vector (BitVec 64) 32 :=
  Vector.ofFn fun r => if r.val < n then 0 else d[r.val - n]?.getD 0

/-- The pixels of one sprite row drawn with its left edge at column x0: sprite bit 7 − c falls on column x0 + c (bit
7 is the leftmost pixel, D24), and a column above 63 is clipped (R165). -/
def spriteRow (b : Byte) (x0 : Nat) : BitVec 64 := (b.reverse.setWidth 64) <<< x0

/-- Draw the first `rows` sprite rows, whose bytes `byteAt` reads at `base`, `base + 1`, …, top to bottom from row y0; the
second part says whether a set pixel was overwritten (R165). -/
def drawRows (byteAt : Nat → Byte) (base x0 y0 : Nat) : Nat → Vector (BitVec 64) 32 → Vector (BitVec 64) 32 × Bool
  | 0, d => (d, false)
  | r + 1, d =>
    let above := drawRows byteAt base x0 y0 r d
    let row := above.1[y0 + r]?.getD 0
    let bits := spriteRow (byteAt (base + r)) x0
    (above.1.setIfInBounds (y0 + r) (row ^^^ bits), above.2 || decide (row &&& bits ≠ 0))

/-- The column a sprite starts in: `V[x] mod 64` (R165). -/
def State.originCol (s : State) (x : Nibble) : Nat := (s.reg x).toNat % 64

/-- The row a sprite starts in: `V[y] mod 32` (R165). -/
def State.originRow (s : State) (y : Nibble) : Nat := (s.reg y).toNat % 32

/-- How many sprite rows are not clipped at the bottom: `min(n, 32 − y0)` (R165). -/
def State.visibleRows (s : State) (y n : Nibble) : Nat := min n.toNat (32 - s.originRow y)

/-- Do the unclipped rows lie inside memory: none, or `I + rows − 1 <= 0xFFF`? (R165, D18) -/
def State.spriteInRange (s : State) (y n : Nibble) : Bool :=
  decide (s.visibleRows y n = 0) || s.inRange (s.visibleRows y n - 1)

/-- The display after a draw, and whether a set pixel was overwritten (R165). The coordinates are read from the
state before VF is cleared. -/
def State.spriteDrawn (s : State) (x y n : Nibble) : Vector (BitVec 64) 32 × Bool :=
  drawRows s.byte s.index.toNat (s.originCol x) (s.originRow y) (s.visibleRows y n) s.display

end Sys2Proof.Machine
end

