-- ==== Sys2Proof/Machine/Flags.lean ====
section
/-! DEFINITION. The flag VF = `V[15]`, the only flag (spec/10_state.md R12): how each value is computed, from the
operands as read before the instruction, and written after the result register (spec/42_load_alu.md R133). -/

namespace Sys2Proof.Machine

/-- The name of the flag register (R12). -/
def flagReg : Nibble := 15

/-- A flag bit as a register value: 1 or 0. -/
def flagByte (b : Bool) : Byte := if b then 1 else 0

/-- Carry out of `8XY4`: the exact sum is above 255 (R126). -/
def carryFlag (a b : Byte) : Byte := flagByte (decide (255 < a.toNat + b.toNat))

/-- Not-borrow of `a − b` in `8XY5` and `8XY7`: `a >= b` (R127, R129, R132). -/
def noBorrowFlag (a b : Byte) : Byte := flagByte (decide (b.toNat ≤ a.toNat))

/-- The bit `8XY6` shifts out: bit 0 of the source operand (R128). -/
def shrFlag (a : Byte) : Byte := flagByte (a.getLsbD 0)

/-- The bit `8XYE` shifts out: bit 7 of the source operand (R130). -/
def shlFlag (a : Byte) : Byte := flagByte (a.getLsbD 7)

/-- Write the result to `V[x]`, and last the flag to VF: with x = 15 the result is lost (R133). -/
def State.setResultFlag (s : State) (x : Nibble) (result flag : Byte) : State := (s.setReg x result).setReg flagReg flag

end Sys2Proof.Machine
end

