-- ==== Sys2Proof/Machine/Display.lean ====
section
/-! DEFINITION. The meanings of the display instructions (spec/44_display.md). Each meaning starts from the state before the
cycle (PC = PC0) and includes the fetch's advance (log entry 10). -/

namespace Sys2Proof.Machine

/-- `00CN` `SCD n` (R161). -/
def execScd (n : Nibble) (s : State) : Result := .next (s.draw (scrollDown s.display n.toNat)).advance

/-- `00E0` `CLS` (R160). -/
def execCls (s : State) : Result := .next (s.draw blankDisplay).advance

/-- Write the inert mode bit `hires` (R20). -/
def State.setHires (s : State) (b : Bool) : State := { s with hires := b }

/-- `00FE` `LOW` (R164). -/
def execLow (s : State) : Result := .next (s.setHires false).advance

/-- `00FF` `HIGH` (R163). -/
def execHigh (s : State) : Result := .next (s.setHires true).advance

/-- `DXYN` `DRW Vx, Vy, n` (R165): fault 2 when an unclipped row lies above 0xFFF, else draw, VF <- collision. -/
def execDrw (x y n : Nibble) (s : State) : Result :=
  if s.spriteInRange y n then
    .next ((s.setReg flagReg (flagByte (s.spriteDrawn x y n).2)).draw (s.spriteDrawn x y n).1).advance
  else .next (s.raiseFault .memOutOfRange (encode (.drw x y n)))

end Sys2Proof.Machine
end

