-- ==== Sys2Proof/Machine/IndexMemory.lean ====
section
/-! DEFINITION. The meanings of the index register and memory instructions (spec/43_index_memory.md). Each meaning starts from the state before the
cycle (PC = PC0) and includes the fetch's advance (log entry 10). -/

namespace Sys2Proof.Machine

/-- `ANNN` `LD I, $NNN` (R140). -/
def execLdI (nnn : Addr) (s : State) : Result := .next (s.setIndex nnn).advance

/-- `FX1E` `ADD I, Vx` (R141): `(I + V[x]) & 0xFFF`, VF not written. -/
def execAddI (x : Nibble) (s : State) : Result := .next (s.setIndex (s.index + (s.reg x).setWidth 12)).advance

/-- `FX29` `LD F, Vx` (R143): fault 5 with V[x] > 0x0F, else I <- 5 × V[x]. -/
def execLdF (x : Nibble) (s : State) : Result :=
  if s.isDigit x then .next (s.setIndex (BitVec.ofNat 12 (5 * (s.reg x).toNat))).advance
  else .next (s.raiseFault .operandOutOfRange (encode (.ldF x)))

/-- `FX30` `LD HF, Vx` (R144): I <- `HIRES_FONT_ADDR(V[x])`, an uninterpreted function. -/
def execLdHf (x : Nibble) (s : State) : Result := .next (s.setIndex (Config.hiresFontAddr (s.reg x))).advance

/-- `FX33` `LD B, Vx` (R145): fault 2 when I + 2 > 0xFFF, else store three decimal digits. -/
def execLdB (x : Nibble) (s : State) : Result :=
  if s.inRange 2 then .next (s.store (s.effAddr 0) (decimalDigits (s.reg x))).advance
  else .next (s.raiseFault .memOutOfRange (encode (.ldB x)))

/-- `FX55` `LD [I], Vx` (R146): fault 2 when I + x > 0xFFF, else store V[0] to V[x] and then write I. -/
def execLdMemVx (x : Nibble) (s : State) : Result :=
  if s.inRange x.toNat then
    .next ((s.store (s.effAddr 0) (s.regsUpTo x)).setIndex (s.indexAfterBlock x)).advance
  else .next (s.raiseFault .memOutOfRange (encode (.ldMemVx x)))

/-- Replace the whole register file. -/
def State.setRegs (s : State) (v : Vector Byte 16) : State := { s with v := v }

/-- `FX65` `LD Vx, [I]` (R147): fault 2 when I + x > 0xFFF, else load V[0] to V[x] and then write I. -/
def execLdVxMem (x : Nibble) (s : State) : Result :=
  if s.inRange x.toNat then
    .next ((s.setRegs (s.loadedRegs x)).setIndex (s.indexAfterBlock x)).advance
  else .next (s.raiseFault .memOutOfRange (encode (.ldVxMem x)))

end Sys2Proof.Machine
end

