-- ==== Sys2Proof/Machine/KeypadTimers.lean ====
section
/-! DEFINITION. The meanings of the keypad, timer register and no-op instructions (spec/45_keypad_timers_misc.md). Each meaning starts from the state before the
cycle (PC = PC0) and includes the fetch's advance (log entry 10). -/

namespace Sys2Proof.Machine

/-- `EX9E` `SKP Vx` (R180): fault 5 with V[x] > 0x0F, else skip if the key is pressed. -/
def execSkp (x : Nibble) (s : State) : Result :=
  if s.isDigit x then .next (s.advanceSkip (s.keyPressed (s.reg x).toNat))
  else .next (s.raiseFault .operandOutOfRange (encode (.skp x)))

/-- `EXA1` `SKNP Vx` (R181): fault 5 with V[x] > 0x0F, else skip if the key is not pressed. -/
def execSknp (x : Nibble) (s : State) : Result :=
  if s.isDigit x then .next (s.advanceSkip (!s.keyPressed (s.reg x).toNat))
  else .next (s.raiseFault .operandOutOfRange (encode (.sknp x)))

/-- `FX07` `LD Vx, DT` (R184). -/
def execLdVxDt (x : Nibble) (s : State) : Result := .next (s.setReg x s.dt).advance

/-- Enter the key wait, recording the destination register (R182). -/
def State.awaitKey (s : State) (x : Nibble) : State := { s with waitingForKey := true, keyRegister := x }

/-- `FX0A` `LD Vx, K` (R182): the fetch's advance is kept, no key is examined in this cycle. -/
def execLdVxK (x : Nibble) (s : State) : Result := .next (s.awaitKey x).advance

/-- `DT <- b` (R16). -/
def State.setDt (s : State) (b : Byte) : State := { s with dt := b }

/-- `ST <- b` (R16). -/
def State.setSt (s : State) (b : Byte) : State := { s with st := b }

/-- `FX15` `LD DT, Vx` (R185). -/
def execLdDtVx (x : Nibble) (s : State) : Result := .next (s.setDt (s.reg x)).advance

/-- `FX18` `LD ST, Vx` (R186). -/
def execLdStVx (x : Nibble) (s : State) : Result := .next (s.setSt (s.reg x)).advance

/-- `FX75` `LD R, Vx` (R187): recognised, no operation; x is ignored. -/
def execLdRVx (_x : Nibble) (s : State) : Result := .next s.advance

/-- `FX85` `LD Vx, R` (R188): recognised, no operation; x is ignored. -/
def execLdVxR (_x : Nibble) (s : State) : Result := .next s.advance

end Sys2Proof.Machine
end

