-- ==== Sys2Proof/Machine/LoadAlu.lean ====
section
/-! DEFINITION. The meanings of the register load and 8-bit ALU instructions (spec/42_load_alu.md). Each meaning starts from the state before the
cycle (PC = PC0) and includes the fetch's advance (log entry 10). -/

namespace Sys2Proof.Machine

/-- `6XNN` `LD Vx, $NN` (R120). -/
def execLdImm (x : Nibble) (nn : Byte) (s : State) : Result := .next (s.setReg x nn).advance

/-- `7XNN` `ADD Vx, $NN` (R121): modulo 256, VF not written. -/
def execAddImm (x : Nibble) (nn : Byte) (s : State) : Result := .next (s.setReg x (s.reg x + nn)).advance

/-- `8XY0` `LD Vx, Vy` (R122). -/
def execLdReg (x y : Nibble) (s : State) : Result := .next (s.setReg x (s.reg y)).advance

/-- `8XY1` `OR Vx, Vy` (R123): VF <- 0, always. -/
def execOrReg (x y : Nibble) (s : State) : Result := .next (s.setResultFlag x (s.reg x ||| s.reg y) 0).advance

/-- `8XY2` `AND Vx, Vy` (R124): VF <- 0, always. -/
def execAndReg (x y : Nibble) (s : State) : Result := .next (s.setResultFlag x (s.reg x &&& s.reg y) 0).advance

/-- `8XY3` `XOR Vx, Vy` (R125): VF <- 0, always. -/
def execXorReg (x y : Nibble) (s : State) : Result := .next (s.setResultFlag x (s.reg x ^^^ s.reg y) 0).advance

/-- `8XY4` `ADD Vx, Vy` (R126): VF <- carry out. -/
def execAddReg (x y : Nibble) (s : State) : Result :=
  .next (s.setResultFlag x (s.reg x + s.reg y) (carryFlag (s.reg x) (s.reg y))).advance

/-- `8XY5` `SUB Vx, Vy` (R127): VF <- 1 when `V[x] >= V[y]`. -/
def execSubReg (x y : Nibble) (s : State) : Result :=
  .next (s.setResultFlag x (s.reg x - s.reg y) (noBorrowFlag (s.reg x) (s.reg y))).advance

/-- `8XY6` `SHR Vx, Vy` (R128): the operand the quirk selects, VF <- its bit 0. -/
def execShr (x y : Nibble) (s : State) : Result :=
  .next (s.setResultFlag x (s.shiftSource x y >>> 1) (shrFlag (s.shiftSource x y))).advance

/-- `8XY7` `SUBN Vx, Vy` (R129): VF <- 1 when `V[y] >= V[x]`. -/
def execSubn (x y : Nibble) (s : State) : Result :=
  .next (s.setResultFlag x (s.reg y - s.reg x) (noBorrowFlag (s.reg y) (s.reg x))).advance

/-- `8XYE` `SHL Vx, Vy` (R130): the operand the quirk selects, VF <- its bit 7. -/
def execShl (x y : Nibble) (s : State) : Result :=
  .next (s.setResultFlag x (s.shiftSource x y <<< 1) (shlFlag (s.shiftSource x y))).advance

/-- The next free draw, taken: the draw counter advances (log entry 4). -/
def State.countDraw (s : State) : State := { s with freeDraws := s.freeDraws + 1 }

/-- `CXNN` `RND Vx, $NN` (R131): a free byte, drawn anew at each execution, masked with nn. -/
def execRnd (x : Nibble) (nn : Byte) (s : State) : Result :=
  .next (s.setReg x (Config.freeByte s.freeDraws &&& nn)).countDraw.advance

end Sys2Proof.Machine
end

