-- ==== Sys2Proof/Machine/Step.lean ====
section
/-! DEFINITION. One `cycle()` (spec/40_cycle_fetch_decode.md R81), and an instruction laid where it fetches next. -/

namespace Sys2Proof.Machine

/-- One call of `cycle()`: the first that applies of paused, faulted, the key-wait scan, and fetch with execute
(R81, D19). -/
def step (s : State) : Host.Outcome State Fault Refusal :=
  if s.paused then .next s
  else if s.faulted then .next s
  else if s.waitingForKey then .next (keyWaitScan s)
  else match fetch s with
    | none => .next (fetchFault s)
    | some op => match decodeWord op with
      | .instr i => exec i s
      | .unknown _ => .next (execUnknown s)

/-- `s` with the opcode whose bits are `w` (numbered as spec/opcode_table.json numbers them, bits above `nbits` 0)
stored at PC, high byte first (R61), and not paused, not faulted and not waiting for a key, which a fetch needs
(R81). Log entry 13. -/
def State.withFetchWord (s : State) (nbits w : Nat) : State :=
  { s.store s.pc.toNat [highByte (BitVec.ofNat 16 (w % 2 ^ nbits)), lowByte (BitVec.ofNat 16 (w % 2 ^ nbits))] with
    paused := false
    fault := ⟨none, 0, 0⟩
    waitingForKey := false }

end Sys2Proof.Machine
end

