-- ==== Sys2Proof/Machine/Disassemble.lean ====
section
/-! DEFINITION. `disassemble(op)`, the canonical text of a word (spec/30_encoding.md R72, spec/60_exceptions.md R219).
It reads no state and has no effect on execution. -/

namespace Sys2Proof.Machine

/-- One upper-case hexadecimal digit (R72). -/
def hexDigit (d : Nibble) : Char := ['0', '1', '2', '3', '4', '5', '6', '7', '8', '9', 'A', 'B', 'C', 'D', 'E', 'F'].getD d.toNat '0'

/-- A register: `V` and one hexadecimal digit (R72). -/
def regText (x : Nibble) : List Char := ['V', hexDigit x]

/-- An 8-bit immediate: `$` and two hexadecimal digits (R72). -/
def immText (nn : Byte) : List Char := ['$', hexDigit (nn.extractLsb' 4 4), hexDigit (nn.extractLsb' 0 4)]

/-- A 12-bit address: `$` and three hexadecimal digits (R72). -/
def addrText (a : Addr) : List Char :=
  ['$', hexDigit (a.extractLsb' 8 4), hexDigit (a.extractLsb' 4 4), hexDigit (a.extractLsb' 0 4)]

/-- A word: `$` and four hexadecimal digits (R72, D28). -/
def wordText (w : Word) : List Char :=
  ['$', hexDigit (w.extractLsb' 12 4), hexDigit (w.extractLsb' 8 4), hexDigit (w.extractLsb' 4 4),
    hexDigit (w.extractLsb' 0 4)]

/-- The height of `DRW` and the count of `SCD`: without `$`, one digit up to 9; above 9 two decimal digits or one
hexadecimal digit, which of them is open (R72; log entry 16). -/
def countText (n : Nibble) : List Char :=
  if decide (9 < n.toNat) && Config.countDecimal then ['1', hexDigit (n - 10)] else [hexDigit n]

/-- A comma and one space (R72). -/
def comma : List Char := [',', ' ']

/-- The text of an instruction (R66, R72). -/
def instrText : Instr → List Char
  | .scd n => ['S', 'C', 'D', ' '] ++ countText n
  | .cls => ['C', 'L', 'S']
  | .ret => ['R', 'E', 'T']
  | .low => ['L', 'O', 'W']
  | .high => ['H', 'I', 'G', 'H']
  | .jp nnn => ['J', 'P', ' '] ++ addrText nnn
  | .call nnn => ['C', 'A', 'L', 'L', ' '] ++ addrText nnn
  | .seImm x nn => ['S', 'E', ' '] ++ regText x ++ comma ++ immText nn
  | .sneImm x nn => ['S', 'N', 'E', ' '] ++ regText x ++ comma ++ immText nn
  | .seReg x y => ['S', 'E', ' '] ++ regText x ++ comma ++ regText y
  | .ldImm x nn => ['L', 'D', ' '] ++ regText x ++ comma ++ immText nn
  | .addImm x nn => ['A', 'D', 'D', ' '] ++ regText x ++ comma ++ immText nn
  | .ldReg x y => ['L', 'D', ' '] ++ regText x ++ comma ++ regText y
  | .orReg x y => ['O', 'R', ' '] ++ regText x ++ comma ++ regText y
  | .andReg x y => ['A', 'N', 'D', ' '] ++ regText x ++ comma ++ regText y
  | .xorReg x y => ['X', 'O', 'R', ' '] ++ regText x ++ comma ++ regText y
  | .addReg x y => ['A', 'D', 'D', ' '] ++ regText x ++ comma ++ regText y
  | .subReg x y => ['S', 'U', 'B', ' '] ++ regText x ++ comma ++ regText y
  | .shr x y => ['S', 'H', 'R', ' '] ++ regText x ++ comma ++ regText y
  | .subn x y => ['S', 'U', 'B', 'N', ' '] ++ regText x ++ comma ++ regText y
  | .shl x y => ['S', 'H', 'L', ' '] ++ regText x ++ comma ++ regText y
  | .sneReg x y => ['S', 'N', 'E', ' '] ++ regText x ++ comma ++ regText y
  | .ldI nnn => ['L', 'D', ' ', 'I'] ++ comma ++ addrText nnn
  | .jpV0 nnn => ['J', 'P', ' ', 'V', '0'] ++ comma ++ addrText nnn
  | .rnd x nn => ['R', 'N', 'D', ' '] ++ regText x ++ comma ++ immText nn
  | .drw x y n => ['D', 'R', 'W', ' '] ++ regText x ++ comma ++ regText y ++ comma ++ countText n
  | .skp x => ['S', 'K', 'P', ' '] ++ regText x
  | .sknp x => ['S', 'K', 'N', 'P', ' '] ++ regText x
  | .ldVxDt x => ['L', 'D', ' '] ++ regText x ++ comma ++ ['D', 'T']
  | .ldVxK x => ['L', 'D', ' '] ++ regText x ++ comma ++ ['K']
  | .ldDtVx x => ['L', 'D', ' ', 'D', 'T'] ++ comma ++ regText x
  | .ldStVx x => ['L', 'D', ' ', 'S', 'T'] ++ comma ++ regText x
  | .addI x => ['A', 'D', 'D', ' ', 'I'] ++ comma ++ regText x
  | .ldF x => ['L', 'D', ' ', 'F'] ++ comma ++ regText x
  | .ldHf x => ['L', 'D', ' ', 'H', 'F'] ++ comma ++ regText x
  | .ldB x => ['L', 'D', ' ', 'B'] ++ comma ++ regText x
  | .ldMemVx x => ['L', 'D', ' ', '[', 'I', ']'] ++ comma ++ regText x
  | .ldVxMem x => ['L', 'D', ' '] ++ regText x ++ comma ++ ['[', 'I', ']']
  | .ldRVx x => ['L', 'D', ' ', 'R'] ++ comma ++ regText x
  | .ldVxR x => ['L', 'D', ' '] ++ regText x ++ comma ++ ['R']

/-- The text of a word as a list of characters (R72, R219). -/
def disassembleChars (op : Word) : List Char :=
  match decodeWord op with
  | .instr i => instrText i
  | .unknown w => ['?', '?', '?', ' '] ++ wordText w

/-- `disassemble(op)` (R219). -/
def disassemble (op : Word) : String := String.ofList (disassembleChars op)

end Sys2Proof.Machine
end

