-- ==== Sys2Proof/Machine/HostOps.lean ====
section
/-! DEFINITION. What the host may do between cycles (spec/60_exceptions.md R213 to R218, spec/70_reset_and_hazards.md
R240, R241), each one atomic step (R90), and runs that mix cycles and host operations in any order. -/

namespace Sys2Proof.Machine

/-- One counter of the tick: decremented by 1, stopping at 0 (R213). -/
def tickDown (t : Byte) : Byte := if 0 < t.toNat then t - 1 else t

/-- `update_timers()`, the tick (R213). -/
def updateTimers (s : State) : State := { s with dt := tickDown s.dt, st := tickDown s.st }

/-- Write one key's state (R215). -/
def State.setKey (s : State) (k : Nat) (b : Bool) : State := { s with keys := s.keys.setIfInBounds k b }

/-- `key_down(k)` (R215): guarded against an index outside 0 to 15. -/
def keyDown (k : Int) (s : State) : State := if keyIndexOk k then s.setKey k.toNat true else s

/-- `key_up(k)` (R215): guarded against an index outside 0 to 15. -/
def keyUp (k : Int) (s : State) : State := if keyIndexOk k then s.setKey k.toNat false else s

/-- `ack_draw()` (R217). -/
def ackDraw (s : State) : State := { s with drawFlag := false }

/-- The host sets its flag `paused` (R218). -/
def setPaused (b : Bool) (s : State) : State := { s with paused := b }

/-- The renderer's read of the display and of `draw_flag` (R216): it changes nothing. -/
def readDisplay (s : State) : Vector (BitVec 64) 32 × Bool := (s.display, s.drawFlag)

/-- `reset()` (R240): the whole state to the values of R27; `FONT`, `QUIRKS` and `paused` are kept, `draw_flag` is a new free
value (log entry 3). -/
def hostReset (s : State) : State := State.resetWith s.font s.quirks s.paused s.freeDraws

/-- `load_rom(bytes)` (R241): failure and nothing changed, or success, a reset, and the bytes copied to 0x200. -/
def loadRom (bytes : List Byte) (s : State) : Bool × State :=
  if romFits bytes then (true, (hostReset s).store 0x200 bytes) else (false, s)

/-- The operations of R214 that may change the state, other than `cycle()`. -/
inductive HostOp where
  | updateTimers
  | keyDown (k : Int)
  | keyUp (k : Int)
  | ackDraw
  | setPaused (b : Bool)
  | reset
  | loadRom (bytes : List Byte)
deriving DecidableEq, Repr

/-- The state after a host operation. -/
def applyHostOp (op : HostOp) (s : State) : State :=
  match op with
  | .updateTimers => updateTimers s
  | .keyDown k => keyDown k s
  | .keyUp k => keyUp k s
  | .ackDraw => ackDraw s
  | .setPaused b => setPaused b s
  | .reset => hostReset s
  | .loadRom bytes => (loadRom bytes s).2

/-- One event of a run: a cycle of the engine or an operation of the host (R80, R90). -/
inductive Event where
  | cycle
  | host (op : HostOp)
deriving DecidableEq, Repr

/-- What one event answers. -/
def applyEvent (e : Event) (s : State) : Result :=
  match e with
  | .cycle => step s
  | .host op => .next (applyHostOp op s)

/-- A run: events in the order the environment chose (R80, R209). -/
def runEvents : List Event → State → Result
  | [], s => .next s
  | e :: es, s =>
    match applyEvent e s with
    | .next t => runEvents es t
    | .fault r => .fault r
    | .refused r => .refused r

end Sys2Proof.Machine
end

