-- ==== Sys2Proof/Machine/Report.lean ====
section
/-! DEFINITION. The outcome of a cycle (spec/40_cycle_fetch_decode.md R87, R88): an output for the host's diagnostics,
computed from the state before the cycle and stored nowhere (D15; log entry 11). -/

namespace Sys2Proof.Machine

/-- The outcomes of R87. -/
inductive CycleOutcome where
  | paused
  | faulted
  | waiting
  | keyCaptured
  | executed
  | unknown (op : Word)
  | newFault (c : Fault)
deriving DecidableEq, Repr

/-- The outcome of a cycle that executed the instruction of word `op`: `NewFault` if the meaning recorded a fault,
else `Executed`. A refusal, which no meaning answers, would be reported as an unknown word. -/
def executeOutcome (op : Word) : Result → CycleOutcome
  | .next t => match t.fault.code with
    | none => .executed
    | some c => .newFault c
  | .fault c => .newFault c
  | .refused _ => .unknown op

/-- The outcome of the cycle that starts in `s` (R81, R87). -/
def cycleOutcome (s : State) : CycleOutcome :=
  if s.paused then .paused
  else if s.faulted then .faulted
  else if s.waitingForKey then
    match firstKey s with
    | some _ => .keyCaptured
    | none => .waiting
  else match fetch s with
    | none => .newFault .fetchOutOfRange
    | some op => match decodeWord op with
      | .instr i => executeOutcome op (exec i s)
      | .unknown w => .unknown w

end Sys2Proof.Machine
end

