-- ==== Sys2Proof/Safety.lean ====
section
/-! DEFINITION. What counts as a good or bad state of a run (spec/70_reset_and_hazards.md R250), the invariant that
every cycle and every host operation keeps, and the words frame statements are made of. -/

namespace Sys2Proof.Machine

/-- "The program went wrong": a recorded fault is not a good end (R250). -/
def State.wentWrong (s : State) : Bool := s.faulted

/-- A wait with no key down: a hang under an environment that presses none, though a legal one (R250). -/
def State.hung (s : State) : Bool := s.waitingForKey && (firstKey s).isNone

/-- A state whose next cycle fetches: not paused, not faulted, not waiting (R81). -/
def State.running (s : State) : Bool := !s.paused && !s.faulted && !s.waitingForKey

/-- The invariant of the core: memory is in canonical form (R40, R41); PC is at most 0x10FE, "so a 16-bit PC never
wraps" (R14); every stack entry is at most 0x1000, the largest return address a call can push (R101). -/
structure State.Inv (s : State) : Prop where
  mem_wf : Memory.wf s.font s.mem = true
  pc_le : s.pc.toNat ≤ 0x10FE
  stack_le : ∀ k (h : k < 16), (s.stack[k]).toNat ≤ 0x1000

/-- The pieces of state, as the words of a frame statement. -/
inductive Part where
  | memory | regs | index | pc | stack | dt | st | display | keys | keyWait | hires | drawFlag | fault | quirks | font
  | paused | draws
deriving DecidableEq, Repr

/-- `t` is like `s` in every piece of state outside `ps`: the frame of an instruction, of a cycle, of a host
operation. Memory is compared through the read of each byte, registers through the read of each register. -/
structure SameOutside (ps : List Part) (s t : State) : Prop where
  memory : Part.memory ∉ ps → ∀ a, t.byte a = s.byte a
  regs : Part.regs ∉ ps → ∀ r, t.reg r = s.reg r
  index : Part.index ∉ ps → t.index = s.index
  pc : Part.pc ∉ ps → t.pc = s.pc
  stack : Part.stack ∉ ps → t.sp = s.sp ∧ t.stack = s.stack
  dt : Part.dt ∉ ps → t.dt = s.dt
  st : Part.st ∉ ps → t.st = s.st
  display : Part.display ∉ ps → t.display = s.display
  keys : Part.keys ∉ ps → t.keys = s.keys
  keyWait : Part.keyWait ∉ ps → t.waitingForKey = s.waitingForKey ∧ t.keyRegister = s.keyRegister
  hires : Part.hires ∉ ps → t.hires = s.hires
  drawFlag : Part.drawFlag ∉ ps → t.drawFlag = s.drawFlag
  fault : Part.fault ∉ ps → t.fault = s.fault
  quirks : Part.quirks ∉ ps → t.quirks = s.quirks
  font : Part.font ∉ ps → t.font = s.font
  paused : Part.paused ∉ ps → t.paused = s.paused
  draws : Part.draws ∉ ps → t.freeDraws = s.freeDraws

end Sys2Proof.Machine
end

