-- ==== Sys2Proof/Certificates/Slice0/Obligations.lean ====
section
/-! DEFINITION. The statements for the provers, from the numbered rules of spec/. Each docstring says which rule or
section a statement formalises, and where a clause rests on a decision of the spec (D<n>) or of the model. -/

namespace Sys2Proof.Machine

/-- The answer `r` of one instruction in `s` is a next state like `s` outside the pieces `ps`, with PC advanced by 2
and the property `p`. -/
def AdvancesWith (ps : List Part) (s : State) (r : Result) (p : State → Prop) : Prop :=
  ∃ t, r = .next t ∧ t.pc = s.pc + 2 ∧ SameOutside (.pc :: ps) s t ∧ p t

/-- The answer `r` of a cycle in `s` is the fault `c` with `fault.op = op`: the state before, plus the record. -/
def FaultsWith (c : Fault) (op : Word) (s : State) (r : Result) : Prop :=
  ∃ t, r = .next t ∧ t.fault = ⟨some c, s.pc, op⟩ ∧ SameOutside [.fault] s t

/-- An ALU instruction with a flag, as R133 orders its writes: VF ends as the flag; `V[x]` is the result unless x = 15;
every other register is unchanged. -/
def AluWith (i : Instr) (x : Nibble) (result flag : Nat) (s : State) : Prop :=
  AdvancesWith [.regs] s (exec i s) fun t =>
    (t.reg 15).toNat = flag ∧ (x ≠ 15 → (t.reg x).toNat = result) ∧ ∀ r, r ≠ x → r ≠ 15 → t.reg r = s.reg r

/-- The column of the sprite's left edge, the row of its top, and the rows not clipped (R165's `x0`, `y0`, `rows`). -/
def spriteX0 (s : State) (x : Nibble) : Nat := (s.reg x).toNat % 64

/-- R165's `y0`. -/
def spriteY0 (s : State) (y : Nibble) : Nat := (s.reg y).toNat % 32

/-- R165's `rows = min(n, 32 − y0)`. -/
def spriteRows (s : State) (y n : Nibble) : Nat := min n.toNat (32 - spriteY0 s y)

/-- R165's condition for no fault: `rows = 0` or `I + rows − 1 <= 0xFFF`. -/
def SpriteFits (s : State) (y n : Nibble) : Prop :=
  spriteRows s y n = 0 ∨ s.index.toNat + spriteRows s y n - 1 ≤ 0xFFF

/-- Does the sprite have a 1 bit that falls on pixel (row, col), not clipped? Row r of the sprite is the byte at
I + r; its bit 7 − c falls on column x0 + c (R165, D24). -/
def SpriteCovers (s : State) (x y n : Nibble) (row col : Nat) : Prop :=
  ∃ r c, r < n.toNat ∧ c < 8 ∧ row = spriteY0 s y + r ∧ row < 32 ∧ col = spriteX0 s x + c ∧ col < 64 ∧
    (s.byte (s.index.toNat + r)).getLsbD (7 - c) = true

/-- The pieces of state each instruction may write when it does not fault, PC apart (R86: "Each instruction's rule
lists every piece of state it writes"). -/
def documentedParts : Instr → List Part
  | .scd _ | .cls => [.display, .drawFlag]
  | .ret | .call _ => [.stack]
  | .low | .high => [.hires]
  | .jp _ | .jpV0 _ | .seImm _ _ | .sneImm _ _ | .seReg _ _ | .sneReg _ _ | .skp _ | .sknp _ | .ldRVx _ | .ldVxR _ => []
  | .ldImm _ _ | .addImm _ _ | .ldReg _ _ | .orReg _ _ | .andReg _ _ | .xorReg _ _ | .addReg _ _ | .subReg _ _
  | .shr _ _ | .subn _ _ | .shl _ _ | .ldVxDt _ => [.regs]
  | .rnd _ _ => [.regs, .draws]
  | .ldI _ | .addI _ | .ldF _ | .ldHf _ => [.index]
  | .drw _ _ _ => [.regs, .display, .drawFlag]
  | .ldVxK _ => [.keyWait]
  | .ldDtVx _ => [.dt]
  | .ldStVx _ => [.st]
  | .ldB _ => [.memory]
  | .ldMemVx _ => [.memory, .index]
  | .ldVxMem _ => [.regs, .index]

/-- The registers each instruction may write: its destination, and VF for the instructions R12 lists. -/
def mayWriteReg : Instr → Nibble → Prop
  | .ldImm x _, r | .addImm x _, r | .ldReg x _, r | .rnd x _, r | .ldVxDt x, r => r = x
  | .orReg x _, r | .andReg x _, r | .xorReg x _, r | .addReg x _, r | .subReg x _, r | .shr x _, r | .subn x _, r
  | .shl x _, r => r = x ∨ r = 15
  | .drw _ _ _, r => r = 15
  | .ldVxMem x, r => r.toNat ≤ x.toNat
  | _, _ => False

/-- The bytes of memory each instruction may store to in `s`: three from I for `FX33` (R145), x + 1 from I for `FX55`
(R146), none for any other. -/
def mayStoreByte : Instr → State → Nat → Prop
  | .ldB _, s, a => s.effAddr 0 ≤ a ∧ a ≤ s.effAddr 2
  | .ldMemVx x, s, a => s.effAddr 0 ≤ a ∧ a ≤ s.effAddr x.toNat
  | _, _, _ => False

/-- The stack entries each instruction may write in `s`: `stack[SP]` for `2NNN` (R101), none for any other. -/
def mayWriteEntry : Instr → State → Nat → Prop
  | .call _, s, k => k = s.sp.val
  | _, _, _ => False

/-- The pixels each instruction may write in `s`: all for `00E0` and `00CN`, the covered ones for `DXYN` (R160, R161,
R165), none for any other. -/
def mayWritePixel : Instr → State → Nat → Nat → Prop
  | .scd _, _, _, _ | .cls, _, _, _ => True
  | .drw x y n, s, row, col => SpriteCovers s x y n row col
  | _, _, _, _ => False

/-- What memory at `a` reads as after the bytes `bs` are stored from I upward in `s` (R46). -/
def byteAfterStore (s : State) (bs : List Byte) (a : Nat) : Byte :=
  if s.index.toNat ≤ a ∧ a < s.index.toNat + bs.length then bs.getD (a - s.index.toNat) 0 else s.byte a

/-- `DXYN`, `00E0` and `00CN`: the "drawing/clear/scroll" opcodes (R162). -/
def isDrawing : Instr → Prop
  | .drw _ _ _ | .cls | .scd _ => True
  | _ => False

/-- A host operation after which a fault record is gone: `reset` and a `load_rom` that succeeds (R204). -/
def clearsFault : Event → Prop
  | .host .reset => True
  | .host (.loadRom bytes) => bytes.length ≤ 3584
  | _ => False

end Sys2Proof.Machine

open Sys2Proof Sys2Proof.Machine

/-- The core as first made has PC = 0x200 and the font at 0x000 to 0x04F, which the spec states, and 0 everywhere else,
which is the spec's decision D5; the font bytes are the default of its decision D23: log entries 1 and 2. Nothing is
said of `draw_flag` (D6). -/
def Obligations.ResetLeavesFontPcAndZeros : Prop :=
  State.reset.pc = 0x200 ∧ (∀ a, State.reset.byte a = if a < 80 then defaultGlyphs.getD a 0 else 0) ∧ defaultGlyphs.length = 80 ∧
    (∀ r, State.reset.reg r = 0) ∧ State.reset.index = 0 ∧ State.reset.sp.val = 0 ∧
    (∀ k, (h : k < 16) → State.reset.stack[k] = 0) ∧ State.reset.dt = 0 ∧ State.reset.st = 0 ∧
    (∀ row col, State.reset.pixel row col = false) ∧ (∀ k, State.reset.keyPressed k = false) ∧
    State.reset.waitingForKey = false ∧ State.reset.keyRegister = 0 ∧ State.reset.hires = false ∧
    State.reset.fault.number = 0 ∧ State.reset.fault.pc = 0 ∧ State.reset.fault.op = 0

/-- `reset()` from any state: nothing of the old state survives but the parameters `FONT` and `QUIRKS` and the host's
`paused` (R28, R240, R242); memory holds the font, whatever font it is (R24), and 0 above it (D5). The new `draw_flag`
is free (D6). -/
def Obligations.HostResetReplacesEverything : Prop :=
  ∀ s : State, SameOutside [.memory, .quirks, .font, .paused, .drawFlag, .draws] State.reset (hostReset s) ∧
    (∀ a, (h : a < 80) → (hostReset s).byte a = s.font[a]) ∧ (∀ a, 80 ≤ a → (hostReset s).byte a = 0) ∧
    (hostReset s).mem = State.reset.mem ∧ (hostReset s).quirks = s.quirks ∧ (hostReset s).font = s.font ∧
    (hostReset s).paused = s.paused

/-- `load_rom`: success resets and copies byte i to 0x200 + i; a ROM longer than 3584 bytes fails (R241). That a
failure leaves the state unchanged is the spec's decision D21. -/
def Obligations.LoadRomResetsThenCopies : Prop :=
  ∀ (bytes : List Byte) (s : State),
    (bytes.length ≤ 3584 → ∃ t, loadRom bytes s = (true, t) ∧
      (∀ k, (h : k < bytes.length) → t.byte (0x200 + k) = bytes[k]) ∧
      (∀ a, a < 0x200 ∨ 0x200 + bytes.length ≤ a → t.byte a = (hostReset s).byte a) ∧
      SameOutside [.memory] (hostReset s) t) ∧
    (3584 < bytes.length → loadRom bytes s = (false, s))

/-- The fetch composes two consecutive bytes big-endian for every PC from 0 to 4094, odd ones included (R42, R43, R84). -/
def Obligations.FetchComposesBigEndian : Prop :=
  ∀ s : State, s.pc.toNat ≤ 4094 →
    ∃ w, fetch s = some w ∧ w.toNat = 256 * (s.byte s.pc.toNat).toNat + (s.byte (s.pc.toNat + 1)).toNat

/-- A fetch with PC above 0xFFE is fault 1 with `fault.op` 0: no wrap to address 0 (R44, R201; decision D1). -/
def Obligations.FetchOutsideMemoryFaults : Prop :=
  ∀ s : State, s.running = true → 0xFFE < s.pc.toNat →
    FaultsWith .fetchOutOfRange 0 s (step s) ∧ cycleOutcome s = .newFault .fetchOutOfRange ∧
      Fault.fetchOutOfRange.number = 1

/-- When the word at PC decodes to an instruction, the cycle is that instruction's meaning at that state: the meaning
itself holds the fetch's advance (log entry 10); the model adds nothing around it (R81 step 4, R85). -/
def Obligations.StepRunsDecodedInstruction : Prop :=
  ∀ (s : State) (w : Word) (i : Instr), s.running = true → fetch s = some w → decodeWord w = .instr i →
    i.wf = true ∧ step s = exec i s

/-- The order of tests at the top of `cycle()`: paused, then faulted, then waiting (R81, R82, R83; the place of the
fault test is decision D19). -/
def Obligations.CycleTestsPausedFaultedWaiting : Prop :=
  ∀ s : State,
    (s.paused = true → step s = .next s ∧ cycleOutcome s = .paused) ∧
    (s.paused = false → s.faulted = true → step s = .next s ∧ cycleOutcome s = .faulted) ∧
    (s.paused = false → s.faulted = false → s.waitingForKey = true →
      step s = .next (keyWaitScan s) ∧
        ((∃ k, k < 16 ∧ s.keyPressed k = true) → cycleOutcome s = .keyCaptured) ∧
        ((¬ ∃ k, k < 16 ∧ s.keyPressed k = true) → cycleOutcome s = .waiting))

/-- An unknown opcode completes with outcome `Unknown(op)`, PC advanced by 2 and no other change (R88). -/
def Obligations.UnknownOpcodeOnlyAdvances : Prop :=
  ∀ (s : State) (w v : Word), s.running = true → fetch s = some w → decodeWord w = .unknown v →
    AdvancesWith [] s (step s) fun _ => cycleOutcome s = .unknown w

/-- Ten words written out from the patterns of R66, one or more for each family, decode to their instructions, and two
words that no row selects decode to unknown: 0x5121 by decision D14, 0x00FB by decision D13 (log entry 20). -/
def Obligations.SampleWordsDecode : Prop :=
  decode 0x00 0xC7 = .instr (.scd 7) ∧ decode 0x00 0xEE = .instr .ret ∧ decode 0x22 0x10 = .instr (.call 0x210) ∧
    decode 0x63 0x45 = .instr (.ldImm 3 0x45) ∧ decode 0x81 0x2E = .instr (.shl 1 2) ∧
    decode 0xA3 0x00 = .instr (.ldI 0x300) ∧ decode 0xF2 0x55 = .instr (.ldMemVx 2) ∧
    decode 0xDA 0xB4 = .instr (.drw 0xA 0xB 4) ∧ decode 0xE2 0x9E = .instr (.skp 2) ∧
    decode 0xF1 0x0A = .instr (.ldVxK 1) ∧ decode 0x51 0x21 = .unknown 0x5121 ∧ decode 0x00 0xFB = .unknown 0x00FB

/-- The four texts the source prints, the text of every unknown word, and the text of every `DRW`: the height without
`$`, one digit up to 9, above 9 decimal or one hexadecimal digit (R72, R219; upper-case digits are decision D28, which
form a height above 9 has is open: log entry 16). -/
def Obligations.DisassemblyTexts : Prop :=
  disassemble 0x11A2 = "JP $1A2" ∧ disassemble 0x6345 = "LD V3, $45" ∧ disassemble 0xDAB4 = "DRW VA, VB, 4" ∧
    disassemble 0xE29E = "SKP V2" ∧
    (∀ w : Word, decodeWord w = .unknown w → disassembleChars w = ['?', '?', '?', ' ', '$'] ++
      [hexDigit (w.extractLsb' 12 4), hexDigit (w.extractLsb' 8 4), hexDigit (w.extractLsb' 4 4),
        hexDigit (w.extractLsb' 0 4)]) ∧
    ∀ x y n : Nibble, ∃ height, disassembleChars (encode (.drw x y n)) =
        ['D', 'R', 'W', ' ', 'V', hexDigit x, ',', ' ', 'V', hexDigit y, ',', ' '] ++ height ∧
      (height = [hexDigit n] ∨ 9 < n.toNat ∧ height = ['1', hexDigit (n - 10)])

/-- Every well-formed instruction, at every value of every operand, is read back from its two bytes in memory. -/
def Obligations.DecodeOfEncodeIsIdentity : Prop :=
  ∀ i : Instr, i.wf = true → decode (highByte (encode i)) (lowByte (encode i)) = .instr i

/-- Every recognised word is the encoding of the instruction it decodes to: no bit is ignored. For the low nibble of
`5XY0`, `9XY0` and the `8XYf` rows that is the spec's decision D14 (R69; log entry 20). -/
def Obligations.EncodeOfDecodeIsIdentity : Prop :=
  ∀ (w : Word) (i : Instr), decodeWord w = .instr i → encode i = w

/-- Decoding is the total function the opcode table defines: at most one row selects a word, a recognised word is
selected by its instruction's row, and a word is `Unknown` exactly when no row selects it (R65). The quirk flags and
`hires` cannot matter: the decoder takes the word alone. -/
def Obligations.DecodeSelectsTheOneRow : Prop :=
  (∀ w : Word, ∀ r₁ ∈ opcodeTable, ∀ r₂ ∈ opcodeTable, r₁.selects w = true → r₂.selects w = true → r₁ = r₂) ∧
    (∀ (w : Word) (i : Instr), decodeWord w = .instr i → rowOf i ∈ opcodeTable ∧ (rowOf i).selects w = true) ∧
    (∀ w : Word, decodeWord w = .unknown w ↔ ∀ r ∈ opcodeTable, r.selects w = false)

/-- `1NNN`: PC <- nnn, and nothing else; a jump to itself changes nothing at all (R100). -/
def Obligations.JumpLoadsTarget : Prop :=
  ∀ (nnn : Addr) (s : State), ∃ t, exec (.jp nnn) s = .next t ∧ t.pc.toNat = nnn.toNat ∧ SameOutside [.pc] s t ∧
    (nnn.toNat = s.pc.toNat → t = s)

/-- `2NNN` with SP < 16: the return address PC0 + 2 goes to `stack[SP]`, SP is one more, PC <- nnn (R101, push order
D26). -/
def Obligations.CallPushesReturnAddress : Prop :=
  ∀ (nnn : Addr) (s : State), s.sp.val < 16 → ∃ t, exec (.call nnn) s = .next t ∧ t.pc.toNat = nnn.toNat ∧
    t.sp.val = s.sp.val + 1 ∧ SameOutside [.pc, .stack] s t ∧
    ∀ k, (h : k < 16) → t.stack[k] = if k = s.sp.val then s.pc + 2 else s.stack[k]

/-- `00EE` with SP > 0: SP is one less and PC is the popped entry, all 16 bits; the entry stays (R103, D26). -/
def Obligations.ReturnPopsIntoPc : Prop :=
  ∀ s : State, 0 < s.sp.val → ∃ t, exec .ret s = .next t ∧ t.sp.val = s.sp.val - 1 ∧ t.stack = s.stack ∧
    (∀ h : s.sp.val - 1 < 16, t.pc = s.stack[s.sp.val - 1]) ∧ SameOutside [.pc, .stack] s t

/-- A call and the return from it: PC is the address after the call, SP and the entries below it are as before. -/
def Obligations.ReturnUndoesCall : Prop :=
  ∀ (nnn : Addr) (s : State), s.sp.val < 16 → ∃ t u, exec (.call nnn) s = .next t ∧ exec .ret t = .next u ∧
    u.pc = s.pc + 2 ∧ u.sp = s.sp ∧ (∀ k, (h : k < 16) → k < s.sp.val → u.stack[k] = s.stack[k]) ∧
    SameOutside [.pc, .stack] s u

/-- A call with a full stack is fault 3, a return with an empty one fault 4; nothing else is written (R202;
decision D1). -/
def Obligations.StackLimitsFault : Prop :=
  (∀ (nnn : Addr) (s : State), s.sp.val = 16 → FaultsWith .stackOverflow (encode (.call nnn)) s (exec (.call nnn) s)) ∧
    (∀ s : State, s.sp.val = 0 → FaultsWith .stackUnderflow 0x00EE s (exec .ret s)) ∧
    Fault.stackOverflow.number = 3 ∧ Fault.stackUnderflow.number = 4

/-- `BNNN`: the exact sum of nnn and `V[0]` or `V[x]`, x the top nibble of nnn; the sum is kept whole (R104; that it is
not masked to 12 bits is decision D4). -/
def Obligations.OffsetJumpAddsSelectedRegister : Prop :=
  ∀ (nnn : Addr) (s : State) (x : Nibble), x.toNat = nnn.toNat / 256 →
    ∃ t, exec (.jpV0 nnn) s = .next t ∧ SameOutside [.pc] s t ∧
      t.pc.toNat = nnn.toNat + (if s.quirks.jumpV0 = true then (s.reg 0).toNat else (s.reg x).toNat)

/-- The four skips: PC is 4 past the instruction when the condition holds, else 2 past it (R105, R106, R107, R108). -/
def Obligations.SkipsPassOverOneInstruction : Prop :=
  ∀ (x y : Nibble) (nn : Byte) (s : State),
    (∃ t, exec (.seImm x nn) s = .next t ∧ SameOutside [.pc] s t ∧ t.pc = s.pc + if s.reg x = nn then 4 else 2) ∧
    (∃ t, exec (.sneImm x nn) s = .next t ∧ SameOutside [.pc] s t ∧ t.pc = s.pc + if s.reg x = nn then 2 else 4) ∧
    (∃ t, exec (.seReg x y) s = .next t ∧ SameOutside [.pc] s t ∧ t.pc = s.pc + if s.reg x = s.reg y then 4 else 2) ∧
    (∃ t, exec (.sneReg x y) s = .next t ∧ SameOutside [.pc] s t ∧ t.pc = s.pc + if s.reg x = s.reg y then 2 else 4)

/-- `6XNN` and `8XY0`: the destination holds the immediate or the source register; no other register changes, VF only
as a destination (R120, R122). -/
def Obligations.LoadsWriteTheDestination : Prop :=
  ∀ (x y : Nibble) (nn : Byte) (s : State),
    (AdvancesWith [.regs] s (exec (.ldImm x nn) s) fun t => ∀ r, t.reg r = if r = x then nn else s.reg r) ∧
    (AdvancesWith [.regs] s (exec (.ldReg x y) s) fun t => ∀ r, t.reg r = if r = x then s.reg y else s.reg r)

/-- `7XNN`: the sum modulo 256 in `V[x]`, every other register unchanged, VF among them (R121; that VF is not written
is decision D17). -/
def Obligations.AddImmediateWrapsWithoutFlag : Prop :=
  ∀ (x : Nibble) (nn : Byte) (s : State), AdvancesWith [.regs] s (exec (.addImm x nn) s) fun t =>
    (t.reg x).toNat = ((s.reg x).toNat + nn.toNat) % 256 ∧ ∀ r, r ≠ x → t.reg r = s.reg r

/-- `8XY1`, `8XY2`, `8XY3`: each bit of the result, and VF 0 always (R123, R124, R125). -/
def Obligations.LogicalOpsClearFlag : Prop :=
  ∀ (x y : Nibble) (s : State),
    (AluWith (.orReg x y) x ((s.reg x).toNat ||| (s.reg y).toNat) 0 s) ∧
    (AluWith (.andReg x y) x ((s.reg x).toNat &&& (s.reg y).toNat) 0 s) ∧
    (AluWith (.xorReg x y) x ((s.reg x).toNat ^^^ (s.reg y).toNat) 0 s)

/-- `8XY4`, `8XY5`, `8XY7`: the result modulo 256, and VF the carry or the not-borrow of the operands as they were
before the instruction (R126, R127, R129). -/
def Obligations.AddAndSubtractWithFlag : Prop :=
  ∀ (x y : Nibble) (s : State) (a b : Nat), a = (s.reg x).toNat → b = (s.reg y).toNat →
    AluWith (.addReg x y) x ((a + b) % 256) (if 255 < a + b then 1 else 0) s ∧
    AluWith (.subReg x y) x ((a + 256 - b) % 256) (if b ≤ a then 1 else 0) s ∧
    AluWith (.subn x y) x ((b + 256 - a) % 256) (if a ≤ b then 1 else 0) s

/-- `8XY6`, `8XYE`: one place, VF the bit shifted out of the source operand (R128, R130; that `shift_vx` set means
`V[x]` is decision D8). -/
def Obligations.ShiftsMoveOnePlace : Prop :=
  ∀ (x y : Nibble) (s : State) (a : Nat), a = (if s.quirks.shiftVx = true then (s.reg x).toNat else (s.reg y).toNat) →
    AluWith (.shr x y) x (a / 2) (a % 2) s ∧ AluWith (.shl x y) x (2 * a % 256) (a / 128) s

/-- `CXNN`: a drawn byte masked with nn; each bit that is 0 in nn is 0 in the result; each execution takes a draw of
its own (R131). Holds whatever the free draw is (log entry 4). -/
def Obligations.RandomByteIsMasked : Prop :=
  ∀ (x : Nibble) (nn : Byte) (s : State), AdvancesWith [.regs, .draws] s (exec (.rnd x nn) s) fun t =>
    (∃ draw : Byte, draw = Config.freeByte s.freeDraws ∧ t.reg x = draw &&& nn) ∧
      (∀ k, nn.getLsbD k = false → (t.reg x).getLsbD k = false) ∧ (∀ r, r ≠ x → t.reg r = s.reg r) ∧
      t.freeDraws = s.freeDraws + 1

/-- `ANNN`: I <- nnn (R140). -/
def Obligations.LoadIndexImmediate : Prop :=
  ∀ (nnn : Addr) (s : State), AdvancesWith [.index] s (exec (.ldI nnn) s) fun t => t.index.toNat = nnn.toNat

/-- `FX1E` wraps I modulo 4096 and leaves VF alone (R141, decision D17); `FX30` loads the uninterpreted
`HIRES_FONT_ADDR(V[x])` (R144, decision D10, log entry 7). -/
def Obligations.IndexAddAndLargeFont : Prop :=
  ∀ (x : Nibble) (s : State),
    (AdvancesWith [.index] s (exec (.addI x) s) fun t =>
      t.index.toNat = (s.index.toNat + (s.reg x).toNat) % 4096) ∧
    (AdvancesWith [.index] s (exec (.ldHf x) s) fun t => t.index = Config.hiresFontAddr (s.reg x))

/-- `FX29` for a digit d: I is 5 × d, and while the font area is as reset left it, the five bytes at I are glyph d of
`FONT`, whatever font it is (R143, R24). -/
def Obligations.FontAddressReachesGlyph : Prop :=
  ∀ (x : Nibble) (s : State), (s.reg x).toNat ≤ 15 → AdvancesWith [.index] s (exec (.ldF x) s) fun t =>
    t.index.toNat = 5 * (s.reg x).toNat ∧
      ((∀ a, (h : a < 80) → s.byte a = s.font[a]) →
        ∀ k, k < 5 → (h : 5 * (s.reg x).toNat + k < 80) → t.byte (t.index.toNat + k) = s.font[5 * (s.reg x).toNat + k])

/-- `FX33` with I at most 0xFFD: hundreds, tens and ones at I, I + 1, I + 2; every other byte unchanged, I unchanged
(R145). -/
def Obligations.DecimalDigitsAreStored : Prop :=
  ∀ (x : Nibble) (s : State), s.index.toNat ≤ 0xFFD → AdvancesWith [.memory] s (exec (.ldB x) s) fun t =>
    (t.byte s.index.toNat).toNat = (s.reg x).toNat / 100 ∧
    (t.byte (s.index.toNat + 1)).toNat = (s.reg x).toNat / 10 % 10 ∧
    (t.byte (s.index.toNat + 2)).toNat = (s.reg x).toNat % 10 ∧
    ∀ a, a < s.index.toNat ∨ s.index.toNat + 2 < a → t.byte a = s.byte a

/-- `FX55` with I + x at most 0xFFF: register i goes to address I + i, every other byte is unchanged, and I advances by
x + 1 (masked) only under `load_store_inc` (R146). -/
def Obligations.BlockStoreWritesRegisters : Prop :=
  ∀ (x : Nibble) (s : State), s.index.toNat + x.toNat ≤ 0xFFF →
    AdvancesWith [.memory, .index] s (exec (.ldMemVx x) s) fun t =>
      (∀ r : Nibble, r.toNat ≤ x.toNat → t.byte (s.index.toNat + r.toNat) = s.reg r) ∧
      (∀ a, a < s.index.toNat ∨ s.index.toNat + x.toNat < a → t.byte a = s.byte a) ∧
      t.index.toNat = if s.quirks.loadStoreInc = true then (s.index.toNat + x.toNat + 1) % 4096 else s.index.toNat

/-- `FX65` with I + x at most 0xFFF: register i is loaded from address I + i, the registers above x are unchanged, and I
advances as for `FX55` (R147). -/
def Obligations.BlockLoadReadsRegisters : Prop :=
  ∀ (x : Nibble) (s : State), s.index.toNat + x.toNat ≤ 0xFFF →
    AdvancesWith [.regs, .index] s (exec (.ldVxMem x) s) fun t =>
      (∀ r : Nibble, t.reg r = if r.toNat ≤ x.toNat then s.byte (s.index.toNat + r.toNat) else s.reg r) ∧
      t.index.toNat = if s.quirks.loadStoreInc = true then (s.index.toNat + x.toNat + 1) % 4096 else s.index.toNat

/-- A block store, and a block load of the same x at the same I in any later state with the same memory, bring
`V[0]` to `V[x]` back (R146, R147). -/
def Obligations.BlockLoadUndoesBlockStore : Prop :=
  ∀ (x : Nibble) (s : State), s.index.toNat + x.toNat ≤ 0xFFF → ∃ t, exec (.ldMemVx x) s = .next t ∧
    ∀ t' : State, (∀ a, t'.byte a = t.byte a) → t'.index = s.index →
      ∃ u, exec (.ldVxMem x) t' = .next u ∧ ∀ r : Nibble, r.toNat ≤ x.toNat → u.reg r = s.reg r

/-- A store into the instruction stream is what the very next fetch sees (R50). After `FX55` or `FX33` the next fetch
reads, for each of its two bytes, the byte stored at that address if the store reached it, else the byte that was
there: the store may replace the whole opcode, one byte of it (x = 0, as in program P8) or none. -/
def Obligations.NextFetchSeesStoredBytes : Prop :=
  ∀ (x : Nibble) (s : State), s.pc.toNat + 2 ≤ 0xFFE →
    (s.index.toNat + x.toNat ≤ 0xFFF → ∃ t, exec (.ldMemVx x) s = .next t ∧
      fetch t = some (wordOfBytes
        (byteAfterStore s ((List.range (x.toNat + 1)).map fun r => s.reg (BitVec.ofNat 4 r)) (s.pc.toNat + 2))
        (byteAfterStore s ((List.range (x.toNat + 1)).map fun r => s.reg (BitVec.ofNat 4 r)) (s.pc.toNat + 3)))) ∧
    (s.index.toNat ≤ 0xFFD → ∃ t, exec (.ldB x) s = .next t ∧
      fetch t = some (wordOfBytes (byteAfterStore s (decimalDigits (s.reg x)) (s.pc.toNat + 2))
        (byteAfterStore s (decimalDigits (s.reg x)) (s.pc.toNat + 3))))

/-- An address I + k above 0xFFF that the instruction would access is fault 2, and nothing else is written (R45, R201;
decisions D1 and D18). -/
def Obligations.DataOutsideMemoryFaults : Prop :=
  (∀ (x : Nibble) (s : State), 0xFFD < s.index.toNat → FaultsWith .memOutOfRange (encode (.ldB x)) s (exec (.ldB x) s)) ∧
    (∀ (x : Nibble) (s : State), 0xFFF < s.index.toNat + x.toNat →
      FaultsWith .memOutOfRange (encode (.ldMemVx x)) s (exec (.ldMemVx x) s) ∧
      FaultsWith .memOutOfRange (encode (.ldVxMem x)) s (exec (.ldVxMem x) s)) ∧
    (∀ (x y n : Nibble) (s : State), ¬ SpriteFits s y n →
      FaultsWith .memOutOfRange (encode (.drw x y n)) s (exec (.drw x y n) s)) ∧
    Fault.memOutOfRange.number = 2

/-- A digit or key number above 15 is fault 5, and nothing else is written (R201; decision D9). -/
def Obligations.OperandOutOfRangeFaults : Prop :=
  ∀ (x : Nibble) (s : State), 15 < (s.reg x).toNat →
    FaultsWith .operandOutOfRange (encode (.skp x)) s (exec (.skp x) s) ∧
    FaultsWith .operandOutOfRange (encode (.sknp x)) s (exec (.sknp x) s) ∧
    FaultsWith .operandOutOfRange (encode (.ldF x)) s (exec (.ldF x) s) ∧ Fault.operandOutOfRange.number = 5

/-- `00E0`: every pixel 0 and `draw_flag` 1; VF is not changed (R160). -/
def Obligations.ClearZeroesTheFramebuffer : Prop :=
  ∀ s : State, AdvancesWith [.display, .drawFlag] s (exec .cls s) fun t =>
    (∀ row col, t.pixel row col = false) ∧ t.drawFlag = true

/-- `00CN`: row r takes row r − n, the top n rows are 0, columns do not move, `draw_flag` 1, whatever `hires` holds
(R161). -/
def Obligations.ScrollDownMovesRows : Prop :=
  ∀ (n : Nibble) (s : State), AdvancesWith [.display, .drawFlag] s (exec (.scd n) s) fun t =>
    (∀ row col, row < 32 → col < 64 → t.pixel row col = if row < n.toNat then false else s.pixel (row - n.toNat) col) ∧
      t.drawFlag = true

/-- `00FF` sets and `00FE` clears `hires`; nothing else changes, `draw_flag` and the display among the rest (R163, R164;
decision D11). -/
def Obligations.ResolutionSwitchesOnlySetHires : Prop :=
  ∀ s : State, (AdvancesWith [.hires] s (exec .high s) fun t => t.hires = true) ∧
    (AdvancesWith [.hires] s (exec .low s) fun t => t.hires = false)

/-- `DXYN` when the unclipped rows lie in memory: each pixel a sprite bit covers is flipped, no other; VF is 1 if a set
pixel was flipped, else 0; the origin wraps and the body is clipped (R165; the bit order is decision D24, the bounds
check D18). -/
def Obligations.DrawFlipsCoveredPixels : Prop :=
  ∀ (x y n : Nibble) (s : State), SpriteFits s y n →
    AdvancesWith [.regs, .display, .drawFlag] s (exec (.drw x y n) s) fun t =>
      (∀ row col, row < 32 → col < 64 → SpriteCovers s x y n row col → t.pixel row col = !s.pixel row col) ∧
      (∀ row col, row < 32 → col < 64 → ¬ SpriteCovers s x y n row col → t.pixel row col = s.pixel row col) ∧
      ((∃ row col, SpriteCovers s x y n row col ∧ s.pixel row col = true) → t.reg 15 = 1) ∧
      ((¬ ∃ row col, SpriteCovers s x y n row col ∧ s.pixel row col = true) → t.reg 15 = 0) ∧
      (∀ r, r ≠ 15 → t.reg r = s.reg r) ∧ t.drawFlag = true

/-- The draw properties the source states as tests (R166): a second draw of the same sprite at the same place restores
the whole display, and its VF is 1 exactly if the first draw turned a pixel from 0 to 1; a draw on a cleared display
leaves exactly the sprite, with VF 0. -/
def Obligations.DrawingTwiceRestoresTheDisplay : Prop :=
  ∀ (x y n : Nibble) (s : State), x ≠ 15 → y ≠ 15 → SpriteFits s y n →
    (∃ t, exec (.drw x y n) s = .next t ∧
      ∀ t' : State, t'.display = t.display → t'.index = s.index → t'.reg x = s.reg x → t'.reg y = s.reg y →
        (∀ r, r < spriteRows s y n → t'.byte (s.index.toNat + r) = s.byte (s.index.toNat + r)) →
        ∃ u, exec (.drw x y n) t' = .next u ∧
          (∀ row col, row < 32 → col < 64 → u.pixel row col = s.pixel row col) ∧
          (u.reg 15 = 1 ↔ ∃ row col, SpriteCovers s x y n row col ∧ s.pixel row col = false)) ∧
    (∃ c u, exec .cls s = .next c ∧ exec (.drw x y n) c = .next u ∧ u.reg 15 = 0 ∧
      ∀ row col, row < 32 → col < 64 → (u.pixel row col = true ↔ SpriteCovers s x y n row col))

/-- `draw_flag` is set to 1 by every execution of `DXYN`, `00E0`, `00CN` that does not fault, and written by no other
instruction (R162; that `00FE` and `00FF` do not set it is decision D11). -/
def Obligations.OnlyDrawingSetsDrawFlag : Prop :=
  ∀ (i : Instr) (s t : State), exec i s = .next t → s.faulted = false →
    (isDrawing i → t.faulted = false → t.drawFlag = true) ∧
    (t.faulted = true → t.drawFlag = s.drawFlag) ∧ (¬ isDrawing i → t.drawFlag = s.drawFlag)

/-- A register that is neither an instruction's destination nor, for the instructions R12 lists, VF is unchanged: the
flag is written by no other instruction (R12). -/
def Obligations.RegistersWrittenOnlyAsListed : Prop :=
  ∀ (i : Instr) (s t : State) (r : Nibble), exec i s = .next t → ¬ mayWriteReg i r → t.reg r = s.reg r

/-- No opcode touches more than the documented subset of state (R86): PC, the pieces its rule lists, and on a fault the
record alone; and of a piece with many cells only the cells its rule writes: the bytes from I upward that `FX33` and
`FX55` store to, the registers `mayWriteReg` lists, the stack entry a call fills, the pixels a drawing instruction
draws. Which pixels a sprite covers rests on decision D24 (log entry 21). -/
def Obligations.ExecTouchesOnlyDocumentedState : Prop :=
  ∀ (i : Instr) (s t : State), exec i s = .next t →
    (SameOutside (.pc :: documentedParts i) s t ∨ (t.faulted = true ∧ SameOutside [.fault] s t)) ∧
    (∀ a, ¬ mayStoreByte i s a → t.byte a = s.byte a) ∧
    (∀ r, ¬ mayWriteReg i r → t.reg r = s.reg r) ∧
    (∀ k, (h : k < 16) → ¬ mayWriteEntry i s k → t.stack[k] = s.stack[k]) ∧
    (∀ row col, row < 32 → col < 64 → ¬ mayWritePixel i s row col → t.pixel row col = s.pixel row col)

/-- A cycle never writes `keys`, `QUIRKS`, `FONT` or `paused`: they are the host's or parameters (R18, R23, R24, R25). -/
def Obligations.CycleNeverWritesHostInputs : Prop :=
  ∀ s t : State, step s = .next t → t.keys = s.keys ∧ t.quirks = s.quirks ∧ t.font = s.font ∧ t.paused = s.paused

/-- Faults are precise (R203, decision D2): a cycle that records a fault leaves the state before the cycle and the
record, whose PC is the address fetched from and whose opcode is the word fetched, or 0 when nothing was; and the
outcome says so. -/
def Obligations.FaultsArePrecise : Prop :=
  ∀ (s t : State) (c : Fault), step s = .next t → s.faulted = false → t.fault.code = some c →
    t = { s with fault := t.fault } ∧ t.fault.pc = s.pc ∧ cycleOutcome s = .newFault c ∧
      ((fetch s = none ∧ c = .fetchOutOfRange ∧ t.fault.op = 0) ∨
        (∃ w, fetch s = some w ∧ c ≠ .fetchOutOfRange ∧ t.fault.op = w))

/-- A fault is sticky (R204, decision D2): through any run without a `reset` or a successful `load_rom`, the record
stays, no cycle does anything, and only what ticks, key events, `ack_draw` and the host's `paused` write can change. -/
def Obligations.FaultIsStickyUntilReset : Prop :=
  ∀ (es : List Event) (s : State), s.faulted = true → (∀ e ∈ es, ¬ clearsFault e) →
    ∃ t, runEvents es s = .next t ∧ t.fault = s.fault ∧
      SameOutside [.dt, .st, .keys, .drawFlag, .paused] s t

/-- The key-wait scan (R183): with a key down, the lowest pressed index is written to the recorded register, the wait
ends and nothing else changes; with no key down, nothing changes at all. -/
def Obligations.KeyWaitScanCapturesLowestKey : Prop :=
  ∀ s : State, s.paused = false → s.faulted = false → s.waitingForKey = true →
    (∀ k, k < 16 → s.keyPressed k = true → (∀ j, j < k → s.keyPressed j = false) →
      ∃ t, step s = .next t ∧ cycleOutcome s = .keyCaptured ∧ t.waitingForKey = false ∧
        t.keyRegister = s.keyRegister ∧
        (∀ r, (t.reg r).toNat = if r = s.keyRegister then k else (s.reg r).toNat) ∧
        SameOutside [.regs, .keyWait] s t) ∧
    ((∀ k, k < 16 → s.keyPressed k = false) → step s = .next s ∧ cycleOutcome s = .waiting)

/-- `FX0A` blocks across any number of cycles until a key is down (R183, R221): no PC change, no further opcode. -/
def Obligations.KeyWaitBlocksUntilKey : Prop :=
  ∀ (n : Nat) (s : State), s.waitingForKey = true → (∀ k, k < 16 → s.keyPressed k = false) →
    core.run n s = .next s

/-- `FX0A` enters the wait and records x; it keeps the fetch's advance and writes no register (R182; conflict C1,
decision D20). -/
def Obligations.KeyWaitIsEntered : Prop :=
  ∀ (x : Nibble) (s : State), AdvancesWith [.keyWait] s (exec (.ldVxK x) s) fun t =>
    t.waitingForKey = true ∧ t.keyRegister = x

/-- `EX9E` and `EXA1` for a key number up to 15: skip if the key is, or is not, pressed (R180, R181). -/
def Obligations.KeySkipsSampleTheKey : Prop :=
  ∀ (x : Nibble) (s : State) (k : Nat), k = (s.reg x).toNat → (h : k < 16) →
    (∃ t, exec (.skp x) s = .next t ∧ SameOutside [.pc] s t ∧ t.pc = s.pc + if s.keys[k] = true then 4 else 2) ∧
    (∃ t, exec (.sknp x) s = .next t ∧ SameOutside [.pc] s t ∧ t.pc = s.pc + if s.keys[k] = true then 2 else 4)

/-- `FX07`, `FX15`, `FX18`: the delay timer is read into `V[x]`, and `V[x]` written to either timer (R184, R185, R186). -/
def Obligations.TimerRegistersAreReadAndWritten : Prop :=
  ∀ (x : Nibble) (s : State),
    (AdvancesWith [.regs] s (exec (.ldVxDt x) s) fun t => ∀ r, t.reg r = if r = x then s.dt else s.reg r) ∧
    (AdvancesWith [.dt] s (exec (.ldDtVx x) s) fun t => t.dt = s.reg x) ∧
    (AdvancesWith [.st] s (exec (.ldStVx x) s) fun t => t.st = s.reg x)

/-- `FX75` and `FX85` do nothing but advance PC, and the cycle's outcome is `Executed`, not `Unknown` (R187, R188;
decision D12). -/
def Obligations.RplFormsAreRecognisedNoOps : Prop :=
  ∀ (x : Nibble) (s : State) (i : Instr), i = .ldRVx x ∨ i = .ldVxR x →
    (AdvancesWith [] s (exec i s) fun _ => True) ∧
      (s.running = true → fetch s = some (encode i) → cycleOutcome s = .executed)

/-- k ticks take each timer down by k, stopping at 0, and change nothing else, whatever the core is doing (R213). -/
def Obligations.TicksCountDownToZero : Prop :=
  ∀ (k : Nat) (s : State), ∃ t, runEvents (List.replicate k (.host .updateTimers)) s = .next t ∧
    t.dt.toNat = s.dt.toNat - k ∧ t.st.toNat = s.st.toNat - k ∧ SameOutside [.dt, .st] s t

/-- `key_down(k)` and `key_up(k)` write `keys[k]` alone for k from 0 to 15, nothing for any other k, and doing either
twice is doing it once (R215). -/
def Obligations.KeyEventsWriteOneKey : Prop :=
  ∀ (k : Int) (s : State),
    (0 ≤ k → k ≤ 15 → ∀ j, j < 16 →
      (keyDown k s).keyPressed j = (if (j : Int) = k then true else s.keyPressed j) ∧
      (keyUp k s).keyPressed j = if (j : Int) = k then false else s.keyPressed j) ∧
    (k < 0 ∨ 15 < k → keyDown k s = s ∧ keyUp k s = s) ∧
    SameOutside [.keys] s (keyDown k s) ∧ SameOutside [.keys] s (keyUp k s) ∧
    keyDown k (keyDown k s) = keyDown k s ∧ keyUp k (keyUp k s) = keyUp k s

/-- `ack_draw()` clears `draw_flag` and the host's write of `paused` is the input of later cycles; neither changes
anything else (R217, R218). -/
def Obligations.HandshakesWriteOneBit : Prop :=
  ∀ (b : Bool) (s : State), (ackDraw s).drawFlag = false ∧ SameOutside [.drawFlag] s (ackDraw s) ∧
    (setPaused b s).paused = b ∧ SameOutside [.paused] s (setPaused b s) ∧ (setPaused s.paused (setPaused b s)) = s

/-- Every cycle answers a next state and keeps the invariant: canonical memory, PC at most 0x10FE "so a 16-bit PC never
wraps" (R14, decision D4), stack entries at most 0x1000. -/
def Obligations.StepKeepsTheInvariant : Prop :=
  ∀ s : State, s.Inv → ∃ t, step s = .next t ∧ t.Inv

/-- The same of every run that mixes cycles and host operations in any order (R80, R90, R209). -/
def Obligations.RunsKeepTheInvariant : Prop :=
  ∀ (es : List Event) (s : State), s.Inv → ∃ t, runEvents es s = .next t ∧ t.Inv

/-- The reset state has the invariant. -/
def Obligations.ResetHasTheInvariant : Prop := State.reset.Inv

/-- `hires`, `ST` and `draw_flag` are inert: "no rule reads" them (R20, R16, R21; decision D11). Two states that differ
only there answer, in one cycle, states that differ only there, with the same outcome. -/
def Obligations.HiresSoundTimerAndDrawFlagAreInert : Prop :=
  ∀ (s : State) (h d : Bool) (b : Byte), ∃ (t : State) (h' d' : Bool) (b' : Byte),
    step s = .next t ∧
      step { s with hires := h, drawFlag := d, st := b } = .next { t with hires := h', drawFlag := d', st := b' } ∧
      cycleOutcome { s with hires := h, drawFlag := d, st := b } = cycleOutcome s
end

