-- ==== Sys2Proof/Laws/Display.lean ====
section
/-! SUPPORT. The laws of the display operations: what each pixel is after a scroll, which pixels a sprite row covers,
and everything a draw does, in closed form. -/

namespace Sys2Proof.Machine

@[simp] theorem scrollDown_getElem (d : Vector (BitVec 64) 32) (n r : Nat) (h : r < 32) :
    (scrollDown d n)[r] = if r < n then 0 else d[r - n]?.getD 0 := by
  simp [scrollDown]

/-- Column x0 + c of a sprite row holds sprite bit 7 − c, and every other column is 0 (R165). -/
theorem spriteRow_getLsbD (b : Byte) (x0 col : Nat) :
    (spriteRow b x0).getLsbD col =
      (decide (x0 ≤ col) && decide (col < 64) && decide (col < x0 + 8) && b.getLsbD (7 - (col - x0))) := by
  simp [spriteRow, BitVec.getLsbD_reverse, BitVec.getMsbD]
  grind

/-- What a row of the display is after the first `rows` sprite rows are drawn: the rows under the sprite are XORed
with the sprite's bits, the others are unchanged (R165). -/
theorem drawRows_row (byteAt : Nat → Byte) (base x0 y0 rows : Nat) (d : Vector (BitVec 64) 32) (r : Nat) (h : r < 32) :
    (drawRows byteAt base x0 y0 rows d).1[r] =
      if y0 ≤ r ∧ r < y0 + rows then d[r] ^^^ spriteRow (byteAt (base + (r - y0))) x0 else d[r] := by
  induction rows with
  | zero => simp [drawRows]
  | succ k ih =>
    simp only [drawRows]
    by_cases hk : y0 + k = r
    · subst hk
      simp only [Vector.getElem?_eq_getElem h, ih, Option.getD_some, Nat.lt_irrefl, and_false, if_false]
      simp
    · rw [Vector.getElem_setIfInBounds_ne h hk, ih]
      grind

/-- When a draw reports that a set pixel was overwritten: some drawn row has a set bit under a sprite bit (R165). -/
theorem drawRows_hit (byteAt : Nat → Byte) (base x0 y0 rows : Nat) (d : Vector (BitVec 64) 32) (hr : y0 + rows ≤ 32) :
    (drawRows byteAt base x0 y0 rows d).2 = true ↔
      ∃ r, ∃ h : r < rows, d[y0 + r] &&& spriteRow (byteAt (base + r)) x0 ≠ 0 := by
  induction rows with
  | zero => simp [drawRows]
  | succ k ih =>
    have hk : y0 + k < 32 := by omega
    have hrow : (drawRows byteAt base x0 y0 k d).1[y0 + k]?.getD 0 = d[y0 + k] := by
      rw [Vector.getElem?_eq_getElem hk, Option.getD_some, drawRows_row]; simp
    simp only [drawRows, hrow, Bool.or_eq_true, decide_eq_true_eq, ih (by omega)]
    constructor
    · rintro (⟨r, hr, h⟩ | h)
      · exact ⟨r, by omega, h⟩
      · exact ⟨k, by omega, h⟩
    · rintro ⟨r, hr', h⟩
      by_cases hrk : r = k
      · subst hrk; exact Or.inr h
      · exact Or.inl ⟨r, by omega, h⟩

/-- Two rows meet in a set bit at some column, or not at all. -/
theorem and_ne_zero_iff (a b : BitVec 64) : a &&& b ≠ 0 ↔ ∃ c, c < 64 ∧ a.getLsbD c = true ∧ b.getLsbD c = true := by
  constructor
  · intro h
    by_contra hc
    refine h (BitVec.eq_of_getLsbD_eq fun i hi => ?_)
    simp only [BitVec.getLsbD_and]
    grind
  · rintro ⟨c, -, h1, h2⟩ h
    simpa [h1, h2] using congrArg (fun v => v.getLsbD c) h

end Sys2Proof.Machine
end

