-- ==== Sys2Proof/Laws/Memory.lean ====
section
/-! SUPPORT. The laws of memory: a read after a write, every operation keeps the canonical form, and canonical
memories that read alike are equal. The read laws hold of every list, canonical or not. -/

namespace Sys2Proof.Machine

variable {f : Font}

/-- Below 0x050 the reset contents are the font. -/
theorem resetByte_of_lt {a : Nat} (h : a < 80) : resetByte f a = f[a] := by simp [resetByte, h]

/-- From 0x050 upward the reset contents are 0. -/
theorem resetByte_of_le {a : Nat} (h : 80 ≤ a) : resetByte f a = 0 := by simp [resetByte, Nat.not_lt.mpr h]

@[simp] theorem Memory.read_nil (a : Nat) : Memory.read f [] a = resetByte f a := rfl

theorem Memory.read_erase (m : Memory) (a n : Nat) :
    Memory.read f (Memory.erase m a) n = if n = a then resetByte f n else Memory.read f m n := by
  induction m with
  | nil => simp [Memory.erase]
  | cons c m ih =>
    obtain ⟨a', b⟩ := c
    simp only [Memory.erase, List.filter_cons] at ih ⊢
    by_cases h : a' = a
    · subst h; simp [ih]
      by_cases hn : n = a' <;> simp [hn, Memory.read]
    · simp only [bne_iff_ne, ne_eq, h, not_false_eq_true, if_true, Memory.read, ih]
      by_cases hn : n = a' <;> simp [hn, h]

theorem Memory.read_insert (m : Memory) (a n : Nat) (b : Byte)
    (hne : ∀ c ∈ m, c.1 ≠ a) : Memory.read f (Memory.insert a b m) n = if n = a then b else Memory.read f m n := by
  induction m with
  | nil => simp [Memory.insert, Memory.read]
  | cons c m ih =>
    obtain ⟨a', b'⟩ := c
    have hc : a' ≠ a := hne (a', b') (by simp)
    have ih := ih (fun c hm => hne c (by simp [hm]))
    simp only [Memory.insert]
    split
    · simp [Memory.read]
    · simp only [Memory.read, ih]
      by_cases hn : n = a' <;> simp [hn, hc]

theorem Memory.erase_ne (m : Memory) (a : Nat) : ∀ c ∈ Memory.erase m a, c.1 ≠ a := by
  intro c hc
  simpa using (List.mem_filter.mp hc).2

/-- A read after a write: the byte written at that address, the old byte elsewhere. -/
theorem Memory.read_write (m : Memory) (a n : Nat) (b : Byte) (ha : a < memSize) :
    Memory.read f (Memory.write f m a b) n = if n = a then b else Memory.read f m n := by
  simp only [Memory.write, Nat.not_le.mpr ha, if_false]
  split
  · next hb => rw [Memory.read_erase]; split <;> simp_all
  · rw [Memory.read_insert _ _ _ _ (Memory.erase_ne m a), Memory.read_erase]; split <;> simp_all

theorem Memory.read_write_ne (m : Memory) (a n : Nat) (b : Byte) (h : n ≠ a) :
    Memory.read f (Memory.write f m a b) n = Memory.read f m n := by
  by_cases ha : a < memSize
  · rw [Memory.read_write _ _ _ _ ha, if_neg h]
  · simp [Memory.write, Nat.not_lt.mp ha]

/-- A read after writing a run of bytes that lies in memory: the byte of the run, the old byte outside it. -/
theorem Memory.read_writeBytes (bs : List Byte) (m : Memory) (a n : Nat) (h : a + bs.length ≤ memSize) :
    Memory.read f (Memory.writeBytes f m a bs) n =
      if hn : a ≤ n ∧ n < a + bs.length then bs[n - a] else Memory.read f m n := by
  induction bs generalizing m a with
  | nil => simp [Memory.writeBytes]
  | cons b bs ih =>
    simp only [List.length_cons] at h
    simp only [Memory.writeBytes, List.length_cons]
    rw [ih _ _ (by omega)]
    by_cases h1 : n = a
    · subst h1; simp [Memory.read_write m n n b (by omega)]
    · by_cases h2 : a + 1 ≤ n ∧ n < a + 1 + bs.length
      · rw [dif_pos h2, dif_pos (by omega)]
        have : n - a = (n - (a + 1)) + 1 := by omega
        simp [this]
      · rw [dif_neg h2, dif_neg (by omega), Memory.read_write_ne _ _ _ _ h1]

/-! ### The canonical form -/

theorem Memory.wfFrom_mono {lo lo' : Nat} (h : lo' ≤ lo) {m : Memory} (hm : Memory.wfFrom f lo m = true) :
    Memory.wfFrom f lo' m = true := by
  cases m with
  | nil => rfl
  | cons c m => simp only [Memory.wfFrom, Bool.and_eq_true, decide_eq_true_eq] at hm ⊢; grind

theorem Memory.wfFrom_erase {lo : Nat} {m : Memory} (a : Nat) (hm : Memory.wfFrom f lo m = true) :
    Memory.wfFrom f lo (Memory.erase m a) = true := by
  induction m generalizing lo with
  | nil => rfl
  | cons c m ih =>
    obtain ⟨a', b⟩ := c
    simp only [Memory.wfFrom, Bool.and_eq_true, decide_eq_true_eq] at hm
    have ih := ih hm.2
    simp only [Memory.erase, List.filter_cons] at ih ⊢
    split
    · simp only [Memory.wfFrom, Bool.and_eq_true, decide_eq_true_eq]; exact ⟨hm.1, ih⟩
    · exact Memory.wfFrom_mono (by omega) ih

theorem Memory.wfFrom_insert {lo a : Nat} {b : Byte} {m : Memory} (hlo : lo ≤ a) (ha : a < memSize)
    (hb : b ≠ resetByte f a) (hne : ∀ c ∈ m, c.1 ≠ a) (hm : Memory.wfFrom f lo m = true) :
    Memory.wfFrom f lo (Memory.insert a b m) = true := by
  induction m generalizing lo with
  | nil => simp [Memory.insert, Memory.wfFrom, hlo, ha, hb]
  | cons c m ih =>
    obtain ⟨a', b'⟩ := c
    have hc : a' ≠ a := hne (a', b') (by simp)
    simp only [Memory.wfFrom, Bool.and_eq_true, decide_eq_true_eq] at hm
    simp only [Memory.insert]
    split
    · next h => simp only [Memory.wfFrom, Bool.and_eq_true, decide_eq_true_eq]; simp_all
    · next h =>
      simp only [Memory.wfFrom, Bool.and_eq_true, decide_eq_true_eq]
      exact ⟨hm.1, ih (by omega) (fun c hc => hne c (by simp [hc])) hm.2⟩

/-- A write keeps the canonical form. -/
theorem Memory.wf_write {m : Memory} (a : Nat) (b : Byte) (hm : Memory.wf f m = true) :
    Memory.wf f (Memory.write f m a b) = true := by
  simp only [Memory.write]
  split
  · exact hm
  · split
    · exact Memory.wfFrom_erase a hm
    · exact Memory.wfFrom_insert (Nat.zero_le a) (by omega) ‹_› (Memory.erase_ne m a) (Memory.wfFrom_erase a hm)

/-- Writing a run of bytes keeps the canonical form. -/
theorem Memory.wf_writeBytes {m : Memory} (a : Nat) (bs : List Byte) (hm : Memory.wf f m = true) :
    Memory.wf f (Memory.writeBytes f m a bs) = true := by
  induction bs generalizing m a with
  | nil => exact hm
  | cons b bs ih => exact ih _ (Memory.wf_write a b hm)

/-- Nothing below `lo` is listed in a memory that is canonical from `lo` upward. -/
theorem Memory.read_below {lo : Nat} {m : Memory} (hm : Memory.wfFrom f lo m = true) {a : Nat} (h : a < lo) :
    Memory.read f m a = resetByte f a := by
  induction m generalizing lo with
  | nil => rfl
  | cons c m ih =>
    simp only [Memory.wfFrom, Bool.and_eq_true, decide_eq_true_eq] at hm
    simp only [Memory.read]
    rw [if_neg (by omega), ih hm.2 (by omega)]

/-- Canonical memories that read alike at every address are the same data. -/
theorem Memory.eq_of_read_eq {lo : Nat} {m m' : Memory} (hm : Memory.wfFrom f lo m = true)
    (hm' : Memory.wfFrom f lo m' = true) (h : ∀ a, Memory.read f m a = Memory.read f m' a) : m = m' := by
  induction m generalizing lo m' with
  | nil =>
    cases m' with
    | nil => rfl
    | cons c m' =>
      simp only [Memory.wfFrom, Bool.and_eq_true, decide_eq_true_eq, bne_iff_ne] at hm'
      exact absurd (by simpa [Memory.read] using (h c.1).symm) hm'.1.2
  | cons c m ih =>
    obtain ⟨a, b⟩ := c
    have hc := hm
    simp only [Memory.wfFrom, Bool.and_eq_true, decide_eq_true_eq, bne_iff_ne] at hc
    cases m' with
    | nil => exact absurd (by simpa [Memory.read] using h a) hc.1.2
    | cons c' m' =>
      obtain ⟨a', b'⟩ := c'
      have hc' := hm'
      simp only [Memory.wfFrom, Bool.and_eq_true, decide_eq_true_eq, bne_iff_ne] at hc'
      have haa : a = a' := by
        rcases Nat.lt_trichotomy a a' with hl | he | hg
        · have := h a
          simp only [Memory.read, if_true, if_neg (Nat.ne_of_lt hl),
            Memory.read_below hc'.2 (Nat.lt_succ_of_lt hl)] at this
          exact absurd this hc.1.2
        · exact he
        · have := h a'
          simp only [Memory.read, if_true, if_neg (Nat.ne_of_lt hg),
            Memory.read_below hc.2 (Nat.lt_succ_of_lt hg)] at this
          exact absurd this.symm hc'.1.2
      subst haa
      have hb : b = b' := by simpa [Memory.read] using h a
      subst hb
      congr 1
      refine ih hc.2 hc'.2 fun n => ?_
      by_cases hn : n = a
      · subst hn; rw [Memory.read_below hc.2 (Nat.lt_succ_self n), Memory.read_below hc'.2 (Nat.lt_succ_self n)]
      · simpa [Memory.read, hn] using h n

end Sys2Proof.Machine
end

