-- ==== Sys2Proof/Laws/State.lean ====
section
/-! SUPPORT. What each named update of the state leaves in each field and what each accessor reads after it: one lemma
per field per update, true by unfolding the update once. -/

namespace Sys2Proof.Machine

variable (s : State)

/-! ### `State.setReg` -/

@[simp] theorem State.setReg_mem (x : Nibble) (b : Byte) : (s.setReg x b).mem = s.mem := rfl
@[simp] theorem State.setReg_v (x : Nibble) (b : Byte) : (s.setReg x b).v = s.v.set x.toNat b x.isLt := rfl
@[simp] theorem State.setReg_index (x : Nibble) (b : Byte) : (s.setReg x b).index = s.index := rfl
@[simp] theorem State.setReg_pc (x : Nibble) (b : Byte) : (s.setReg x b).pc = s.pc := rfl
@[simp] theorem State.setReg_sp (x : Nibble) (b : Byte) : (s.setReg x b).sp = s.sp := rfl
@[simp] theorem State.setReg_stack (x : Nibble) (b : Byte) : (s.setReg x b).stack = s.stack := rfl
@[simp] theorem State.setReg_dt (x : Nibble) (b : Byte) : (s.setReg x b).dt = s.dt := rfl
@[simp] theorem State.setReg_st (x : Nibble) (b : Byte) : (s.setReg x b).st = s.st := rfl
@[simp] theorem State.setReg_display (x : Nibble) (b : Byte) : (s.setReg x b).display = s.display := rfl
@[simp] theorem State.setReg_keys (x : Nibble) (b : Byte) : (s.setReg x b).keys = s.keys := rfl
@[simp] theorem State.setReg_waitingForKey (x : Nibble) (b : Byte) : (s.setReg x b).waitingForKey = s.waitingForKey := rfl
@[simp] theorem State.setReg_keyRegister (x : Nibble) (b : Byte) : (s.setReg x b).keyRegister = s.keyRegister := rfl
@[simp] theorem State.setReg_hires (x : Nibble) (b : Byte) : (s.setReg x b).hires = s.hires := rfl
@[simp] theorem State.setReg_drawFlag (x : Nibble) (b : Byte) : (s.setReg x b).drawFlag = s.drawFlag := rfl
@[simp] theorem State.setReg_fault (x : Nibble) (b : Byte) : (s.setReg x b).fault = s.fault := rfl
@[simp] theorem State.setReg_quirks (x : Nibble) (b : Byte) : (s.setReg x b).quirks = s.quirks := rfl
@[simp] theorem State.setReg_font (x : Nibble) (b : Byte) : (s.setReg x b).font = s.font := rfl
@[simp] theorem State.setReg_paused (x : Nibble) (b : Byte) : (s.setReg x b).paused = s.paused := rfl
@[simp] theorem State.setReg_freeDraws (x : Nibble) (b : Byte) : (s.setReg x b).freeDraws = s.freeDraws := rfl
@[simp] theorem State.setReg_byte (x : Nibble) (b : Byte) (n : Nat) : (s.setReg x b).byte n = s.byte n := rfl
@[simp] theorem State.setReg_pixel (x : Nibble) (b : Byte) (row col : Nat) : (s.setReg x b).pixel row col = s.pixel row col := rfl
@[simp] theorem State.setReg_keyPressed (x : Nibble) (b : Byte) (n : Nat) : (s.setReg x b).keyPressed n = s.keyPressed n := rfl
@[simp] theorem State.setReg_faulted (x : Nibble) (b : Byte) : (s.setReg x b).faulted = s.faulted := rfl

/-! ### `State.setRegs` -/

@[simp] theorem State.setRegs_mem (v : Vector Byte 16) : (s.setRegs v).mem = s.mem := rfl
@[simp] theorem State.setRegs_v (v : Vector Byte 16) : (s.setRegs v).v = v := rfl
@[simp] theorem State.setRegs_index (v : Vector Byte 16) : (s.setRegs v).index = s.index := rfl
@[simp] theorem State.setRegs_pc (v : Vector Byte 16) : (s.setRegs v).pc = s.pc := rfl
@[simp] theorem State.setRegs_sp (v : Vector Byte 16) : (s.setRegs v).sp = s.sp := rfl
@[simp] theorem State.setRegs_stack (v : Vector Byte 16) : (s.setRegs v).stack = s.stack := rfl
@[simp] theorem State.setRegs_dt (v : Vector Byte 16) : (s.setRegs v).dt = s.dt := rfl
@[simp] theorem State.setRegs_st (v : Vector Byte 16) : (s.setRegs v).st = s.st := rfl
@[simp] theorem State.setRegs_display (v : Vector Byte 16) : (s.setRegs v).display = s.display := rfl
@[simp] theorem State.setRegs_keys (v : Vector Byte 16) : (s.setRegs v).keys = s.keys := rfl
@[simp] theorem State.setRegs_waitingForKey (v : Vector Byte 16) : (s.setRegs v).waitingForKey = s.waitingForKey := rfl
@[simp] theorem State.setRegs_keyRegister (v : Vector Byte 16) : (s.setRegs v).keyRegister = s.keyRegister := rfl
@[simp] theorem State.setRegs_hires (v : Vector Byte 16) : (s.setRegs v).hires = s.hires := rfl
@[simp] theorem State.setRegs_drawFlag (v : Vector Byte 16) : (s.setRegs v).drawFlag = s.drawFlag := rfl
@[simp] theorem State.setRegs_fault (v : Vector Byte 16) : (s.setRegs v).fault = s.fault := rfl
@[simp] theorem State.setRegs_quirks (v : Vector Byte 16) : (s.setRegs v).quirks = s.quirks := rfl
@[simp] theorem State.setRegs_font (v : Vector Byte 16) : (s.setRegs v).font = s.font := rfl
@[simp] theorem State.setRegs_paused (v : Vector Byte 16) : (s.setRegs v).paused = s.paused := rfl
@[simp] theorem State.setRegs_freeDraws (v : Vector Byte 16) : (s.setRegs v).freeDraws = s.freeDraws := rfl
@[simp] theorem State.setRegs_byte (v : Vector Byte 16) (n : Nat) : (s.setRegs v).byte n = s.byte n := rfl
@[simp] theorem State.setRegs_pixel (v : Vector Byte 16) (row col : Nat) : (s.setRegs v).pixel row col = s.pixel row col := rfl
@[simp] theorem State.setRegs_keyPressed (v : Vector Byte 16) (n : Nat) : (s.setRegs v).keyPressed n = s.keyPressed n := rfl
@[simp] theorem State.setRegs_faulted (v : Vector Byte 16) : (s.setRegs v).faulted = s.faulted := rfl

/-! ### `State.store` -/

@[simp] theorem State.store_mem (a : Nat) (bs : List Byte) : (s.store a bs).mem = Memory.writeBytes s.font s.mem a bs := rfl
@[simp] theorem State.store_v (a : Nat) (bs : List Byte) : (s.store a bs).v = s.v := rfl
@[simp] theorem State.store_index (a : Nat) (bs : List Byte) : (s.store a bs).index = s.index := rfl
@[simp] theorem State.store_pc (a : Nat) (bs : List Byte) : (s.store a bs).pc = s.pc := rfl
@[simp] theorem State.store_sp (a : Nat) (bs : List Byte) : (s.store a bs).sp = s.sp := rfl
@[simp] theorem State.store_stack (a : Nat) (bs : List Byte) : (s.store a bs).stack = s.stack := rfl
@[simp] theorem State.store_dt (a : Nat) (bs : List Byte) : (s.store a bs).dt = s.dt := rfl
@[simp] theorem State.store_st (a : Nat) (bs : List Byte) : (s.store a bs).st = s.st := rfl
@[simp] theorem State.store_display (a : Nat) (bs : List Byte) : (s.store a bs).display = s.display := rfl
@[simp] theorem State.store_keys (a : Nat) (bs : List Byte) : (s.store a bs).keys = s.keys := rfl
@[simp] theorem State.store_waitingForKey (a : Nat) (bs : List Byte) : (s.store a bs).waitingForKey = s.waitingForKey := rfl
@[simp] theorem State.store_keyRegister (a : Nat) (bs : List Byte) : (s.store a bs).keyRegister = s.keyRegister := rfl
@[simp] theorem State.store_hires (a : Nat) (bs : List Byte) : (s.store a bs).hires = s.hires := rfl
@[simp] theorem State.store_drawFlag (a : Nat) (bs : List Byte) : (s.store a bs).drawFlag = s.drawFlag := rfl
@[simp] theorem State.store_fault (a : Nat) (bs : List Byte) : (s.store a bs).fault = s.fault := rfl
@[simp] theorem State.store_quirks (a : Nat) (bs : List Byte) : (s.store a bs).quirks = s.quirks := rfl
@[simp] theorem State.store_font (a : Nat) (bs : List Byte) : (s.store a bs).font = s.font := rfl
@[simp] theorem State.store_paused (a : Nat) (bs : List Byte) : (s.store a bs).paused = s.paused := rfl
@[simp] theorem State.store_freeDraws (a : Nat) (bs : List Byte) : (s.store a bs).freeDraws = s.freeDraws := rfl
@[simp] theorem State.store_reg (a : Nat) (bs : List Byte) (r : Nibble) : (s.store a bs).reg r = s.reg r := rfl
@[simp] theorem State.store_pixel (a : Nat) (bs : List Byte) (row col : Nat) : (s.store a bs).pixel row col = s.pixel row col := rfl
@[simp] theorem State.store_keyPressed (a : Nat) (bs : List Byte) (n : Nat) : (s.store a bs).keyPressed n = s.keyPressed n := rfl
@[simp] theorem State.store_faulted (a : Nat) (bs : List Byte) : (s.store a bs).faulted = s.faulted := rfl

/-! ### `State.setIndex` -/

@[simp] theorem State.setIndex_mem (a : Addr) : (s.setIndex a).mem = s.mem := rfl
@[simp] theorem State.setIndex_v (a : Addr) : (s.setIndex a).v = s.v := rfl
@[simp] theorem State.setIndex_index (a : Addr) : (s.setIndex a).index = a := rfl
@[simp] theorem State.setIndex_pc (a : Addr) : (s.setIndex a).pc = s.pc := rfl
@[simp] theorem State.setIndex_sp (a : Addr) : (s.setIndex a).sp = s.sp := rfl
@[simp] theorem State.setIndex_stack (a : Addr) : (s.setIndex a).stack = s.stack := rfl
@[simp] theorem State.setIndex_dt (a : Addr) : (s.setIndex a).dt = s.dt := rfl
@[simp] theorem State.setIndex_st (a : Addr) : (s.setIndex a).st = s.st := rfl
@[simp] theorem State.setIndex_display (a : Addr) : (s.setIndex a).display = s.display := rfl
@[simp] theorem State.setIndex_keys (a : Addr) : (s.setIndex a).keys = s.keys := rfl
@[simp] theorem State.setIndex_waitingForKey (a : Addr) : (s.setIndex a).waitingForKey = s.waitingForKey := rfl
@[simp] theorem State.setIndex_keyRegister (a : Addr) : (s.setIndex a).keyRegister = s.keyRegister := rfl
@[simp] theorem State.setIndex_hires (a : Addr) : (s.setIndex a).hires = s.hires := rfl
@[simp] theorem State.setIndex_drawFlag (a : Addr) : (s.setIndex a).drawFlag = s.drawFlag := rfl
@[simp] theorem State.setIndex_fault (a : Addr) : (s.setIndex a).fault = s.fault := rfl
@[simp] theorem State.setIndex_quirks (a : Addr) : (s.setIndex a).quirks = s.quirks := rfl
@[simp] theorem State.setIndex_font (a : Addr) : (s.setIndex a).font = s.font := rfl
@[simp] theorem State.setIndex_paused (a : Addr) : (s.setIndex a).paused = s.paused := rfl
@[simp] theorem State.setIndex_freeDraws (a : Addr) : (s.setIndex a).freeDraws = s.freeDraws := rfl
@[simp] theorem State.setIndex_reg (a : Addr) (r : Nibble) : (s.setIndex a).reg r = s.reg r := rfl
@[simp] theorem State.setIndex_byte (a : Addr) (n : Nat) : (s.setIndex a).byte n = s.byte n := rfl
@[simp] theorem State.setIndex_pixel (a : Addr) (row col : Nat) : (s.setIndex a).pixel row col = s.pixel row col := rfl
@[simp] theorem State.setIndex_keyPressed (a : Addr) (n : Nat) : (s.setIndex a).keyPressed n = s.keyPressed n := rfl
@[simp] theorem State.setIndex_faulted (a : Addr) : (s.setIndex a).faulted = s.faulted := rfl

/-! ### `State.jump` -/

@[simp] theorem State.jump_mem (a : Word) : (s.jump a).mem = s.mem := rfl
@[simp] theorem State.jump_v (a : Word) : (s.jump a).v = s.v := rfl
@[simp] theorem State.jump_index (a : Word) : (s.jump a).index = s.index := rfl
@[simp] theorem State.jump_pc (a : Word) : (s.jump a).pc = a := rfl
@[simp] theorem State.jump_sp (a : Word) : (s.jump a).sp = s.sp := rfl
@[simp] theorem State.jump_stack (a : Word) : (s.jump a).stack = s.stack := rfl
@[simp] theorem State.jump_dt (a : Word) : (s.jump a).dt = s.dt := rfl
@[simp] theorem State.jump_st (a : Word) : (s.jump a).st = s.st := rfl
@[simp] theorem State.jump_display (a : Word) : (s.jump a).display = s.display := rfl
@[simp] theorem State.jump_keys (a : Word) : (s.jump a).keys = s.keys := rfl
@[simp] theorem State.jump_waitingForKey (a : Word) : (s.jump a).waitingForKey = s.waitingForKey := rfl
@[simp] theorem State.jump_keyRegister (a : Word) : (s.jump a).keyRegister = s.keyRegister := rfl
@[simp] theorem State.jump_hires (a : Word) : (s.jump a).hires = s.hires := rfl
@[simp] theorem State.jump_drawFlag (a : Word) : (s.jump a).drawFlag = s.drawFlag := rfl
@[simp] theorem State.jump_fault (a : Word) : (s.jump a).fault = s.fault := rfl
@[simp] theorem State.jump_quirks (a : Word) : (s.jump a).quirks = s.quirks := rfl
@[simp] theorem State.jump_font (a : Word) : (s.jump a).font = s.font := rfl
@[simp] theorem State.jump_paused (a : Word) : (s.jump a).paused = s.paused := rfl
@[simp] theorem State.jump_freeDraws (a : Word) : (s.jump a).freeDraws = s.freeDraws := rfl
@[simp] theorem State.jump_reg (a : Word) (r : Nibble) : (s.jump a).reg r = s.reg r := rfl
@[simp] theorem State.jump_byte (a : Word) (n : Nat) : (s.jump a).byte n = s.byte n := rfl
@[simp] theorem State.jump_pixel (a : Word) (row col : Nat) : (s.jump a).pixel row col = s.pixel row col := rfl
@[simp] theorem State.jump_keyPressed (a : Word) (n : Nat) : (s.jump a).keyPressed n = s.keyPressed n := rfl
@[simp] theorem State.jump_faulted (a : Word) : (s.jump a).faulted = s.faulted := rfl

/-! ### `State.advance` -/

@[simp] theorem State.advance_mem : (s.advance).mem = s.mem := rfl
@[simp] theorem State.advance_v : (s.advance).v = s.v := rfl
@[simp] theorem State.advance_index : (s.advance).index = s.index := rfl
@[simp] theorem State.advance_pc : (s.advance).pc = s.pc + 2 := rfl
@[simp] theorem State.advance_sp : (s.advance).sp = s.sp := rfl
@[simp] theorem State.advance_stack : (s.advance).stack = s.stack := rfl
@[simp] theorem State.advance_dt : (s.advance).dt = s.dt := rfl
@[simp] theorem State.advance_st : (s.advance).st = s.st := rfl
@[simp] theorem State.advance_display : (s.advance).display = s.display := rfl
@[simp] theorem State.advance_keys : (s.advance).keys = s.keys := rfl
@[simp] theorem State.advance_waitingForKey : (s.advance).waitingForKey = s.waitingForKey := rfl
@[simp] theorem State.advance_keyRegister : (s.advance).keyRegister = s.keyRegister := rfl
@[simp] theorem State.advance_hires : (s.advance).hires = s.hires := rfl
@[simp] theorem State.advance_drawFlag : (s.advance).drawFlag = s.drawFlag := rfl
@[simp] theorem State.advance_fault : (s.advance).fault = s.fault := rfl
@[simp] theorem State.advance_quirks : (s.advance).quirks = s.quirks := rfl
@[simp] theorem State.advance_font : (s.advance).font = s.font := rfl
@[simp] theorem State.advance_paused : (s.advance).paused = s.paused := rfl
@[simp] theorem State.advance_freeDraws : (s.advance).freeDraws = s.freeDraws := rfl
@[simp] theorem State.advance_reg (r : Nibble) : (s.advance).reg r = s.reg r := rfl
@[simp] theorem State.advance_byte (n : Nat) : (s.advance).byte n = s.byte n := rfl
@[simp] theorem State.advance_pixel (row col : Nat) : (s.advance).pixel row col = s.pixel row col := rfl
@[simp] theorem State.advance_keyPressed (n : Nat) : (s.advance).keyPressed n = s.keyPressed n := rfl
@[simp] theorem State.advance_faulted : (s.advance).faulted = s.faulted := rfl

/-! ### `State.draw` -/

@[simp] theorem State.draw_mem (d : Vector (BitVec 64) 32) : (s.draw d).mem = s.mem := rfl
@[simp] theorem State.draw_v (d : Vector (BitVec 64) 32) : (s.draw d).v = s.v := rfl
@[simp] theorem State.draw_index (d : Vector (BitVec 64) 32) : (s.draw d).index = s.index := rfl
@[simp] theorem State.draw_pc (d : Vector (BitVec 64) 32) : (s.draw d).pc = s.pc := rfl
@[simp] theorem State.draw_sp (d : Vector (BitVec 64) 32) : (s.draw d).sp = s.sp := rfl
@[simp] theorem State.draw_stack (d : Vector (BitVec 64) 32) : (s.draw d).stack = s.stack := rfl
@[simp] theorem State.draw_dt (d : Vector (BitVec 64) 32) : (s.draw d).dt = s.dt := rfl
@[simp] theorem State.draw_st (d : Vector (BitVec 64) 32) : (s.draw d).st = s.st := rfl
@[simp] theorem State.draw_display (d : Vector (BitVec 64) 32) : (s.draw d).display = d := rfl
@[simp] theorem State.draw_keys (d : Vector (BitVec 64) 32) : (s.draw d).keys = s.keys := rfl
@[simp] theorem State.draw_waitingForKey (d : Vector (BitVec 64) 32) : (s.draw d).waitingForKey = s.waitingForKey := rfl
@[simp] theorem State.draw_keyRegister (d : Vector (BitVec 64) 32) : (s.draw d).keyRegister = s.keyRegister := rfl
@[simp] theorem State.draw_hires (d : Vector (BitVec 64) 32) : (s.draw d).hires = s.hires := rfl
@[simp] theorem State.draw_drawFlag (d : Vector (BitVec 64) 32) : (s.draw d).drawFlag = true := rfl
@[simp] theorem State.draw_fault (d : Vector (BitVec 64) 32) : (s.draw d).fault = s.fault := rfl
@[simp] theorem State.draw_quirks (d : Vector (BitVec 64) 32) : (s.draw d).quirks = s.quirks := rfl
@[simp] theorem State.draw_font (d : Vector (BitVec 64) 32) : (s.draw d).font = s.font := rfl
@[simp] theorem State.draw_paused (d : Vector (BitVec 64) 32) : (s.draw d).paused = s.paused := rfl
@[simp] theorem State.draw_freeDraws (d : Vector (BitVec 64) 32) : (s.draw d).freeDraws = s.freeDraws := rfl
@[simp] theorem State.draw_reg (d : Vector (BitVec 64) 32) (r : Nibble) : (s.draw d).reg r = s.reg r := rfl
@[simp] theorem State.draw_byte (d : Vector (BitVec 64) 32) (n : Nat) : (s.draw d).byte n = s.byte n := rfl
@[simp] theorem State.draw_keyPressed (d : Vector (BitVec 64) 32) (n : Nat) : (s.draw d).keyPressed n = s.keyPressed n := rfl
@[simp] theorem State.draw_faulted (d : Vector (BitVec 64) 32) : (s.draw d).faulted = s.faulted := rfl

/-! ### `State.push` -/

@[simp] theorem State.push_mem (a : Word) (h : s.sp.val < 16) : (s.push a h).mem = s.mem := rfl
@[simp] theorem State.push_v (a : Word) (h : s.sp.val < 16) : (s.push a h).v = s.v := rfl
@[simp] theorem State.push_index (a : Word) (h : s.sp.val < 16) : (s.push a h).index = s.index := rfl
@[simp] theorem State.push_pc (a : Word) (h : s.sp.val < 16) : (s.push a h).pc = s.pc := rfl
@[simp] theorem State.push_sp (a : Word) (h : s.sp.val < 16) : (s.push a h).sp = ⟨s.sp.val + 1, Nat.succ_lt_succ h⟩ := rfl
@[simp] theorem State.push_stack (a : Word) (h : s.sp.val < 16) : (s.push a h).stack = s.stack.set s.sp.val a h := rfl
@[simp] theorem State.push_dt (a : Word) (h : s.sp.val < 16) : (s.push a h).dt = s.dt := rfl
@[simp] theorem State.push_st (a : Word) (h : s.sp.val < 16) : (s.push a h).st = s.st := rfl
@[simp] theorem State.push_display (a : Word) (h : s.sp.val < 16) : (s.push a h).display = s.display := rfl
@[simp] theorem State.push_keys (a : Word) (h : s.sp.val < 16) : (s.push a h).keys = s.keys := rfl
@[simp] theorem State.push_waitingForKey (a : Word) (h : s.sp.val < 16) : (s.push a h).waitingForKey = s.waitingForKey := rfl
@[simp] theorem State.push_keyRegister (a : Word) (h : s.sp.val < 16) : (s.push a h).keyRegister = s.keyRegister := rfl
@[simp] theorem State.push_hires (a : Word) (h : s.sp.val < 16) : (s.push a h).hires = s.hires := rfl
@[simp] theorem State.push_drawFlag (a : Word) (h : s.sp.val < 16) : (s.push a h).drawFlag = s.drawFlag := rfl
@[simp] theorem State.push_fault (a : Word) (h : s.sp.val < 16) : (s.push a h).fault = s.fault := rfl
@[simp] theorem State.push_quirks (a : Word) (h : s.sp.val < 16) : (s.push a h).quirks = s.quirks := rfl
@[simp] theorem State.push_font (a : Word) (h : s.sp.val < 16) : (s.push a h).font = s.font := rfl
@[simp] theorem State.push_paused (a : Word) (h : s.sp.val < 16) : (s.push a h).paused = s.paused := rfl
@[simp] theorem State.push_freeDraws (a : Word) (h : s.sp.val < 16) : (s.push a h).freeDraws = s.freeDraws := rfl
@[simp] theorem State.push_reg (a : Word) (h : s.sp.val < 16) (r : Nibble) : (s.push a h).reg r = s.reg r := rfl
@[simp] theorem State.push_byte (a : Word) (h : s.sp.val < 16) (n : Nat) : (s.push a h).byte n = s.byte n := rfl
@[simp] theorem State.push_pixel (a : Word) (h : s.sp.val < 16) (row col : Nat) : (s.push a h).pixel row col = s.pixel row col := rfl
@[simp] theorem State.push_keyPressed (a : Word) (h : s.sp.val < 16) (n : Nat) : (s.push a h).keyPressed n = s.keyPressed n := rfl
@[simp] theorem State.push_faulted (a : Word) (h : s.sp.val < 16) : (s.push a h).faulted = s.faulted := rfl

/-! ### `State.pop` -/

@[simp] theorem State.pop_mem (h : 0 < s.sp.val) : (s.pop h).mem = s.mem := rfl
@[simp] theorem State.pop_v (h : 0 < s.sp.val) : (s.pop h).v = s.v := rfl
@[simp] theorem State.pop_index (h : 0 < s.sp.val) : (s.pop h).index = s.index := rfl
@[simp] theorem State.pop_stack (h : 0 < s.sp.val) : (s.pop h).stack = s.stack := rfl
@[simp] theorem State.pop_dt (h : 0 < s.sp.val) : (s.pop h).dt = s.dt := rfl
@[simp] theorem State.pop_st (h : 0 < s.sp.val) : (s.pop h).st = s.st := rfl
@[simp] theorem State.pop_display (h : 0 < s.sp.val) : (s.pop h).display = s.display := rfl
@[simp] theorem State.pop_keys (h : 0 < s.sp.val) : (s.pop h).keys = s.keys := rfl
@[simp] theorem State.pop_waitingForKey (h : 0 < s.sp.val) : (s.pop h).waitingForKey = s.waitingForKey := rfl
@[simp] theorem State.pop_keyRegister (h : 0 < s.sp.val) : (s.pop h).keyRegister = s.keyRegister := rfl
@[simp] theorem State.pop_hires (h : 0 < s.sp.val) : (s.pop h).hires = s.hires := rfl
@[simp] theorem State.pop_drawFlag (h : 0 < s.sp.val) : (s.pop h).drawFlag = s.drawFlag := rfl
@[simp] theorem State.pop_fault (h : 0 < s.sp.val) : (s.pop h).fault = s.fault := rfl
@[simp] theorem State.pop_quirks (h : 0 < s.sp.val) : (s.pop h).quirks = s.quirks := rfl
@[simp] theorem State.pop_font (h : 0 < s.sp.val) : (s.pop h).font = s.font := rfl
@[simp] theorem State.pop_paused (h : 0 < s.sp.val) : (s.pop h).paused = s.paused := rfl
@[simp] theorem State.pop_freeDraws (h : 0 < s.sp.val) : (s.pop h).freeDraws = s.freeDraws := rfl
@[simp] theorem State.pop_reg (h : 0 < s.sp.val) (r : Nibble) : (s.pop h).reg r = s.reg r := rfl
@[simp] theorem State.pop_byte (h : 0 < s.sp.val) (n : Nat) : (s.pop h).byte n = s.byte n := rfl
@[simp] theorem State.pop_pixel (h : 0 < s.sp.val) (row col : Nat) : (s.pop h).pixel row col = s.pixel row col := rfl
@[simp] theorem State.pop_keyPressed (h : 0 < s.sp.val) (n : Nat) : (s.pop h).keyPressed n = s.keyPressed n := rfl
@[simp] theorem State.pop_faulted (h : 0 < s.sp.val) : (s.pop h).faulted = s.faulted := rfl

/-! ### `State.raiseFault` -/

@[simp] theorem State.raiseFault_mem (c : Fault) (op : Word) : (s.raiseFault c op).mem = s.mem := rfl
@[simp] theorem State.raiseFault_v (c : Fault) (op : Word) : (s.raiseFault c op).v = s.v := rfl
@[simp] theorem State.raiseFault_index (c : Fault) (op : Word) : (s.raiseFault c op).index = s.index := rfl
@[simp] theorem State.raiseFault_pc (c : Fault) (op : Word) : (s.raiseFault c op).pc = s.pc := rfl
@[simp] theorem State.raiseFault_sp (c : Fault) (op : Word) : (s.raiseFault c op).sp = s.sp := rfl
@[simp] theorem State.raiseFault_stack (c : Fault) (op : Word) : (s.raiseFault c op).stack = s.stack := rfl
@[simp] theorem State.raiseFault_dt (c : Fault) (op : Word) : (s.raiseFault c op).dt = s.dt := rfl
@[simp] theorem State.raiseFault_st (c : Fault) (op : Word) : (s.raiseFault c op).st = s.st := rfl
@[simp] theorem State.raiseFault_display (c : Fault) (op : Word) : (s.raiseFault c op).display = s.display := rfl
@[simp] theorem State.raiseFault_keys (c : Fault) (op : Word) : (s.raiseFault c op).keys = s.keys := rfl
@[simp] theorem State.raiseFault_waitingForKey (c : Fault) (op : Word) : (s.raiseFault c op).waitingForKey = s.waitingForKey := rfl
@[simp] theorem State.raiseFault_keyRegister (c : Fault) (op : Word) : (s.raiseFault c op).keyRegister = s.keyRegister := rfl
@[simp] theorem State.raiseFault_hires (c : Fault) (op : Word) : (s.raiseFault c op).hires = s.hires := rfl
@[simp] theorem State.raiseFault_drawFlag (c : Fault) (op : Word) : (s.raiseFault c op).drawFlag = s.drawFlag := rfl
@[simp] theorem State.raiseFault_fault (c : Fault) (op : Word) : (s.raiseFault c op).fault = ⟨some c, s.pc, op⟩ := rfl
@[simp] theorem State.raiseFault_quirks (c : Fault) (op : Word) : (s.raiseFault c op).quirks = s.quirks := rfl
@[simp] theorem State.raiseFault_font (c : Fault) (op : Word) : (s.raiseFault c op).font = s.font := rfl
@[simp] theorem State.raiseFault_paused (c : Fault) (op : Word) : (s.raiseFault c op).paused = s.paused := rfl
@[simp] theorem State.raiseFault_freeDraws (c : Fault) (op : Word) : (s.raiseFault c op).freeDraws = s.freeDraws := rfl
@[simp] theorem State.raiseFault_reg (c : Fault) (op : Word) (r : Nibble) : (s.raiseFault c op).reg r = s.reg r := rfl
@[simp] theorem State.raiseFault_byte (c : Fault) (op : Word) (n : Nat) : (s.raiseFault c op).byte n = s.byte n := rfl
@[simp] theorem State.raiseFault_pixel (c : Fault) (op : Word) (row col : Nat) : (s.raiseFault c op).pixel row col = s.pixel row col := rfl
@[simp] theorem State.raiseFault_keyPressed (c : Fault) (op : Word) (n : Nat) : (s.raiseFault c op).keyPressed n = s.keyPressed n := rfl

/-! ### `State.setHires` -/

@[simp] theorem State.setHires_mem (b : Bool) : (s.setHires b).mem = s.mem := rfl
@[simp] theorem State.setHires_v (b : Bool) : (s.setHires b).v = s.v := rfl
@[simp] theorem State.setHires_index (b : Bool) : (s.setHires b).index = s.index := rfl
@[simp] theorem State.setHires_pc (b : Bool) : (s.setHires b).pc = s.pc := rfl
@[simp] theorem State.setHires_sp (b : Bool) : (s.setHires b).sp = s.sp := rfl
@[simp] theorem State.setHires_stack (b : Bool) : (s.setHires b).stack = s.stack := rfl
@[simp] theorem State.setHires_dt (b : Bool) : (s.setHires b).dt = s.dt := rfl
@[simp] theorem State.setHires_st (b : Bool) : (s.setHires b).st = s.st := rfl
@[simp] theorem State.setHires_display (b : Bool) : (s.setHires b).display = s.display := rfl
@[simp] theorem State.setHires_keys (b : Bool) : (s.setHires b).keys = s.keys := rfl
@[simp] theorem State.setHires_waitingForKey (b : Bool) : (s.setHires b).waitingForKey = s.waitingForKey := rfl
@[simp] theorem State.setHires_keyRegister (b : Bool) : (s.setHires b).keyRegister = s.keyRegister := rfl
@[simp] theorem State.setHires_hires (b : Bool) : (s.setHires b).hires = b := rfl
@[simp] theorem State.setHires_drawFlag (b : Bool) : (s.setHires b).drawFlag = s.drawFlag := rfl
@[simp] theorem State.setHires_fault (b : Bool) : (s.setHires b).fault = s.fault := rfl
@[simp] theorem State.setHires_quirks (b : Bool) : (s.setHires b).quirks = s.quirks := rfl
@[simp] theorem State.setHires_font (b : Bool) : (s.setHires b).font = s.font := rfl
@[simp] theorem State.setHires_paused (b : Bool) : (s.setHires b).paused = s.paused := rfl
@[simp] theorem State.setHires_freeDraws (b : Bool) : (s.setHires b).freeDraws = s.freeDraws := rfl
@[simp] theorem State.setHires_reg (b : Bool) (r : Nibble) : (s.setHires b).reg r = s.reg r := rfl
@[simp] theorem State.setHires_byte (b : Bool) (n : Nat) : (s.setHires b).byte n = s.byte n := rfl
@[simp] theorem State.setHires_pixel (b : Bool) (row col : Nat) : (s.setHires b).pixel row col = s.pixel row col := rfl
@[simp] theorem State.setHires_keyPressed (b : Bool) (n : Nat) : (s.setHires b).keyPressed n = s.keyPressed n := rfl
@[simp] theorem State.setHires_faulted (b : Bool) : (s.setHires b).faulted = s.faulted := rfl

/-! ### `State.awaitKey` -/

@[simp] theorem State.awaitKey_mem (x : Nibble) : (s.awaitKey x).mem = s.mem := rfl
@[simp] theorem State.awaitKey_v (x : Nibble) : (s.awaitKey x).v = s.v := rfl
@[simp] theorem State.awaitKey_index (x : Nibble) : (s.awaitKey x).index = s.index := rfl
@[simp] theorem State.awaitKey_pc (x : Nibble) : (s.awaitKey x).pc = s.pc := rfl
@[simp] theorem State.awaitKey_sp (x : Nibble) : (s.awaitKey x).sp = s.sp := rfl
@[simp] theorem State.awaitKey_stack (x : Nibble) : (s.awaitKey x).stack = s.stack := rfl
@[simp] theorem State.awaitKey_dt (x : Nibble) : (s.awaitKey x).dt = s.dt := rfl
@[simp] theorem State.awaitKey_st (x : Nibble) : (s.awaitKey x).st = s.st := rfl
@[simp] theorem State.awaitKey_display (x : Nibble) : (s.awaitKey x).display = s.display := rfl
@[simp] theorem State.awaitKey_keys (x : Nibble) : (s.awaitKey x).keys = s.keys := rfl
@[simp] theorem State.awaitKey_waitingForKey (x : Nibble) : (s.awaitKey x).waitingForKey = true := rfl
@[simp] theorem State.awaitKey_keyRegister (x : Nibble) : (s.awaitKey x).keyRegister = x := rfl
@[simp] theorem State.awaitKey_hires (x : Nibble) : (s.awaitKey x).hires = s.hires := rfl
@[simp] theorem State.awaitKey_drawFlag (x : Nibble) : (s.awaitKey x).drawFlag = s.drawFlag := rfl
@[simp] theorem State.awaitKey_fault (x : Nibble) : (s.awaitKey x).fault = s.fault := rfl
@[simp] theorem State.awaitKey_quirks (x : Nibble) : (s.awaitKey x).quirks = s.quirks := rfl
@[simp] theorem State.awaitKey_font (x : Nibble) : (s.awaitKey x).font = s.font := rfl
@[simp] theorem State.awaitKey_paused (x : Nibble) : (s.awaitKey x).paused = s.paused := rfl
@[simp] theorem State.awaitKey_freeDraws (x : Nibble) : (s.awaitKey x).freeDraws = s.freeDraws := rfl
@[simp] theorem State.awaitKey_reg (x : Nibble) (r : Nibble) : (s.awaitKey x).reg r = s.reg r := rfl
@[simp] theorem State.awaitKey_byte (x : Nibble) (n : Nat) : (s.awaitKey x).byte n = s.byte n := rfl
@[simp] theorem State.awaitKey_pixel (x : Nibble) (row col : Nat) : (s.awaitKey x).pixel row col = s.pixel row col := rfl
@[simp] theorem State.awaitKey_keyPressed (x : Nibble) (n : Nat) : (s.awaitKey x).keyPressed n = s.keyPressed n := rfl
@[simp] theorem State.awaitKey_faulted (x : Nibble) : (s.awaitKey x).faulted = s.faulted := rfl

/-! ### `State.setDt` -/

@[simp] theorem State.setDt_mem (b : Byte) : (s.setDt b).mem = s.mem := rfl
@[simp] theorem State.setDt_v (b : Byte) : (s.setDt b).v = s.v := rfl
@[simp] theorem State.setDt_index (b : Byte) : (s.setDt b).index = s.index := rfl
@[simp] theorem State.setDt_pc (b : Byte) : (s.setDt b).pc = s.pc := rfl
@[simp] theorem State.setDt_sp (b : Byte) : (s.setDt b).sp = s.sp := rfl
@[simp] theorem State.setDt_stack (b : Byte) : (s.setDt b).stack = s.stack := rfl
@[simp] theorem State.setDt_dt (b : Byte) : (s.setDt b).dt = b := rfl
@[simp] theorem State.setDt_st (b : Byte) : (s.setDt b).st = s.st := rfl
@[simp] theorem State.setDt_display (b : Byte) : (s.setDt b).display = s.display := rfl
@[simp] theorem State.setDt_keys (b : Byte) : (s.setDt b).keys = s.keys := rfl
@[simp] theorem State.setDt_waitingForKey (b : Byte) : (s.setDt b).waitingForKey = s.waitingForKey := rfl
@[simp] theorem State.setDt_keyRegister (b : Byte) : (s.setDt b).keyRegister = s.keyRegister := rfl
@[simp] theorem State.setDt_hires (b : Byte) : (s.setDt b).hires = s.hires := rfl
@[simp] theorem State.setDt_drawFlag (b : Byte) : (s.setDt b).drawFlag = s.drawFlag := rfl
@[simp] theorem State.setDt_fault (b : Byte) : (s.setDt b).fault = s.fault := rfl
@[simp] theorem State.setDt_quirks (b : Byte) : (s.setDt b).quirks = s.quirks := rfl
@[simp] theorem State.setDt_font (b : Byte) : (s.setDt b).font = s.font := rfl
@[simp] theorem State.setDt_paused (b : Byte) : (s.setDt b).paused = s.paused := rfl
@[simp] theorem State.setDt_freeDraws (b : Byte) : (s.setDt b).freeDraws = s.freeDraws := rfl
@[simp] theorem State.setDt_reg (b : Byte) (r : Nibble) : (s.setDt b).reg r = s.reg r := rfl
@[simp] theorem State.setDt_byte (b : Byte) (n : Nat) : (s.setDt b).byte n = s.byte n := rfl
@[simp] theorem State.setDt_pixel (b : Byte) (row col : Nat) : (s.setDt b).pixel row col = s.pixel row col := rfl
@[simp] theorem State.setDt_keyPressed (b : Byte) (n : Nat) : (s.setDt b).keyPressed n = s.keyPressed n := rfl
@[simp] theorem State.setDt_faulted (b : Byte) : (s.setDt b).faulted = s.faulted := rfl

/-! ### `State.setSt` -/

@[simp] theorem State.setSt_mem (b : Byte) : (s.setSt b).mem = s.mem := rfl
@[simp] theorem State.setSt_v (b : Byte) : (s.setSt b).v = s.v := rfl
@[simp] theorem State.setSt_index (b : Byte) : (s.setSt b).index = s.index := rfl
@[simp] theorem State.setSt_pc (b : Byte) : (s.setSt b).pc = s.pc := rfl
@[simp] theorem State.setSt_sp (b : Byte) : (s.setSt b).sp = s.sp := rfl
@[simp] theorem State.setSt_stack (b : Byte) : (s.setSt b).stack = s.stack := rfl
@[simp] theorem State.setSt_dt (b : Byte) : (s.setSt b).dt = s.dt := rfl
@[simp] theorem State.setSt_st (b : Byte) : (s.setSt b).st = b := rfl
@[simp] theorem State.setSt_display (b : Byte) : (s.setSt b).display = s.display := rfl
@[simp] theorem State.setSt_keys (b : Byte) : (s.setSt b).keys = s.keys := rfl
@[simp] theorem State.setSt_waitingForKey (b : Byte) : (s.setSt b).waitingForKey = s.waitingForKey := rfl
@[simp] theorem State.setSt_keyRegister (b : Byte) : (s.setSt b).keyRegister = s.keyRegister := rfl
@[simp] theorem State.setSt_hires (b : Byte) : (s.setSt b).hires = s.hires := rfl
@[simp] theorem State.setSt_drawFlag (b : Byte) : (s.setSt b).drawFlag = s.drawFlag := rfl
@[simp] theorem State.setSt_fault (b : Byte) : (s.setSt b).fault = s.fault := rfl
@[simp] theorem State.setSt_quirks (b : Byte) : (s.setSt b).quirks = s.quirks := rfl
@[simp] theorem State.setSt_font (b : Byte) : (s.setSt b).font = s.font := rfl
@[simp] theorem State.setSt_paused (b : Byte) : (s.setSt b).paused = s.paused := rfl
@[simp] theorem State.setSt_freeDraws (b : Byte) : (s.setSt b).freeDraws = s.freeDraws := rfl
@[simp] theorem State.setSt_reg (b : Byte) (r : Nibble) : (s.setSt b).reg r = s.reg r := rfl
@[simp] theorem State.setSt_byte (b : Byte) (n : Nat) : (s.setSt b).byte n = s.byte n := rfl
@[simp] theorem State.setSt_pixel (b : Byte) (row col : Nat) : (s.setSt b).pixel row col = s.pixel row col := rfl
@[simp] theorem State.setSt_keyPressed (b : Byte) (n : Nat) : (s.setSt b).keyPressed n = s.keyPressed n := rfl
@[simp] theorem State.setSt_faulted (b : Byte) : (s.setSt b).faulted = s.faulted := rfl

/-! ### `State.countDraw` -/

@[simp] theorem State.countDraw_mem : (s.countDraw).mem = s.mem := rfl
@[simp] theorem State.countDraw_v : (s.countDraw).v = s.v := rfl
@[simp] theorem State.countDraw_index : (s.countDraw).index = s.index := rfl
@[simp] theorem State.countDraw_pc : (s.countDraw).pc = s.pc := rfl
@[simp] theorem State.countDraw_sp : (s.countDraw).sp = s.sp := rfl
@[simp] theorem State.countDraw_stack : (s.countDraw).stack = s.stack := rfl
@[simp] theorem State.countDraw_dt : (s.countDraw).dt = s.dt := rfl
@[simp] theorem State.countDraw_st : (s.countDraw).st = s.st := rfl
@[simp] theorem State.countDraw_display : (s.countDraw).display = s.display := rfl
@[simp] theorem State.countDraw_keys : (s.countDraw).keys = s.keys := rfl
@[simp] theorem State.countDraw_waitingForKey : (s.countDraw).waitingForKey = s.waitingForKey := rfl
@[simp] theorem State.countDraw_keyRegister : (s.countDraw).keyRegister = s.keyRegister := rfl
@[simp] theorem State.countDraw_hires : (s.countDraw).hires = s.hires := rfl
@[simp] theorem State.countDraw_drawFlag : (s.countDraw).drawFlag = s.drawFlag := rfl
@[simp] theorem State.countDraw_fault : (s.countDraw).fault = s.fault := rfl
@[simp] theorem State.countDraw_quirks : (s.countDraw).quirks = s.quirks := rfl
@[simp] theorem State.countDraw_font : (s.countDraw).font = s.font := rfl
@[simp] theorem State.countDraw_paused : (s.countDraw).paused = s.paused := rfl
@[simp] theorem State.countDraw_freeDraws : (s.countDraw).freeDraws = s.freeDraws + 1 := rfl
@[simp] theorem State.countDraw_reg (r : Nibble) : (s.countDraw).reg r = s.reg r := rfl
@[simp] theorem State.countDraw_byte (n : Nat) : (s.countDraw).byte n = s.byte n := rfl
@[simp] theorem State.countDraw_pixel (row col : Nat) : (s.countDraw).pixel row col = s.pixel row col := rfl
@[simp] theorem State.countDraw_keyPressed (n : Nat) : (s.countDraw).keyPressed n = s.keyPressed n := rfl
@[simp] theorem State.countDraw_faulted : (s.countDraw).faulted = s.faulted := rfl

/-! ### `State.setKey` -/

@[simp] theorem State.setKey_mem (k : Nat) (b : Bool) : (s.setKey k b).mem = s.mem := rfl
@[simp] theorem State.setKey_v (k : Nat) (b : Bool) : (s.setKey k b).v = s.v := rfl
@[simp] theorem State.setKey_index (k : Nat) (b : Bool) : (s.setKey k b).index = s.index := rfl
@[simp] theorem State.setKey_pc (k : Nat) (b : Bool) : (s.setKey k b).pc = s.pc := rfl
@[simp] theorem State.setKey_sp (k : Nat) (b : Bool) : (s.setKey k b).sp = s.sp := rfl
@[simp] theorem State.setKey_stack (k : Nat) (b : Bool) : (s.setKey k b).stack = s.stack := rfl
@[simp] theorem State.setKey_dt (k : Nat) (b : Bool) : (s.setKey k b).dt = s.dt := rfl
@[simp] theorem State.setKey_st (k : Nat) (b : Bool) : (s.setKey k b).st = s.st := rfl
@[simp] theorem State.setKey_display (k : Nat) (b : Bool) : (s.setKey k b).display = s.display := rfl
@[simp] theorem State.setKey_keys (k : Nat) (b : Bool) : (s.setKey k b).keys = s.keys.setIfInBounds k b := rfl
@[simp] theorem State.setKey_waitingForKey (k : Nat) (b : Bool) : (s.setKey k b).waitingForKey = s.waitingForKey := rfl
@[simp] theorem State.setKey_keyRegister (k : Nat) (b : Bool) : (s.setKey k b).keyRegister = s.keyRegister := rfl
@[simp] theorem State.setKey_hires (k : Nat) (b : Bool) : (s.setKey k b).hires = s.hires := rfl
@[simp] theorem State.setKey_drawFlag (k : Nat) (b : Bool) : (s.setKey k b).drawFlag = s.drawFlag := rfl
@[simp] theorem State.setKey_fault (k : Nat) (b : Bool) : (s.setKey k b).fault = s.fault := rfl
@[simp] theorem State.setKey_quirks (k : Nat) (b : Bool) : (s.setKey k b).quirks = s.quirks := rfl
@[simp] theorem State.setKey_font (k : Nat) (b : Bool) : (s.setKey k b).font = s.font := rfl
@[simp] theorem State.setKey_paused (k : Nat) (b : Bool) : (s.setKey k b).paused = s.paused := rfl
@[simp] theorem State.setKey_freeDraws (k : Nat) (b : Bool) : (s.setKey k b).freeDraws = s.freeDraws := rfl
@[simp] theorem State.setKey_reg (k : Nat) (b : Bool) (r : Nibble) : (s.setKey k b).reg r = s.reg r := rfl
@[simp] theorem State.setKey_byte (k : Nat) (b : Bool) (n : Nat) : (s.setKey k b).byte n = s.byte n := rfl
@[simp] theorem State.setKey_pixel (k : Nat) (b : Bool) (row col : Nat) : (s.setKey k b).pixel row col = s.pixel row col := rfl
@[simp] theorem State.setKey_faulted (k : Nat) (b : Bool) : (s.setKey k b).faulted = s.faulted := rfl

/-! ### `State.pop`: the two fields it writes -/

@[simp] theorem State.pop_sp_val (h : 0 < s.sp.val) : (s.pop h).sp.val = s.sp.val - 1 := rfl

theorem State.pop_pc (h : 0 < s.sp.val) (h' : s.sp.val - 1 < 16) : (s.pop h).pc = s.stack[s.sp.val - 1] := rfl

/-! ### `State.advanceSkip` -/

theorem State.advanceSkip_eq (c : Bool) : s.advanceSkip c = s.jump (s.pc + if c then 4 else 2) := by
  cases c
  · rfl
  · simp [State.advanceSkip, State.advance, State.jump, BitVec.add_assoc]

@[simp] theorem State.advanceSkip_pc (c : Bool) : (s.advanceSkip c).pc = s.pc + if c then 4 else 2 := by
  rw [State.advanceSkip_eq]; rfl

/-! ### Reading back what an update wrote -/

@[simp] theorem State.reg_setReg (x r : Nibble) (b : Byte) :
    (s.setReg x b).reg r = if r = x then b else s.reg r := by
  simp only [State.reg, State.setReg, Vector.getElem_set, BitVec.toNat_inj, eq_comm]

@[simp] theorem State.raiseFault_faulted (c : Fault) (op : Word) : (s.raiseFault c op).faulted = true := rfl

@[simp] theorem flagReg_eq : flagReg = 15 := rfl

@[simp] theorem State.reg_setResultFlag (x r : Nibble) (b f : Byte) :
    (s.setResultFlag x b f).reg r = if r = 15 then f else if r = x then b else s.reg r := by
  simp [State.setResultFlag]

/-! ### `State.setResultFlag` -/

@[simp] theorem State.setResultFlag_mem (x : Nibble) (b f : Byte) : (s.setResultFlag x b f).mem = s.mem := rfl
@[simp] theorem State.setResultFlag_index (x : Nibble) (b f : Byte) : (s.setResultFlag x b f).index = s.index := rfl
@[simp] theorem State.setResultFlag_pc (x : Nibble) (b f : Byte) : (s.setResultFlag x b f).pc = s.pc := rfl
@[simp] theorem State.setResultFlag_sp (x : Nibble) (b f : Byte) : (s.setResultFlag x b f).sp = s.sp := rfl
@[simp] theorem State.setResultFlag_stack (x : Nibble) (b f : Byte) : (s.setResultFlag x b f).stack = s.stack := rfl
@[simp] theorem State.setResultFlag_dt (x : Nibble) (b f : Byte) : (s.setResultFlag x b f).dt = s.dt := rfl
@[simp] theorem State.setResultFlag_st (x : Nibble) (b f : Byte) : (s.setResultFlag x b f).st = s.st := rfl
@[simp] theorem State.setResultFlag_display (x : Nibble) (b f : Byte) : (s.setResultFlag x b f).display = s.display := rfl
@[simp] theorem State.setResultFlag_keys (x : Nibble) (b f : Byte) : (s.setResultFlag x b f).keys = s.keys := rfl
@[simp] theorem State.setResultFlag_waitingForKey (x : Nibble) (b f : Byte) : (s.setResultFlag x b f).waitingForKey = s.waitingForKey := rfl
@[simp] theorem State.setResultFlag_keyRegister (x : Nibble) (b f : Byte) : (s.setResultFlag x b f).keyRegister = s.keyRegister := rfl
@[simp] theorem State.setResultFlag_hires (x : Nibble) (b f : Byte) : (s.setResultFlag x b f).hires = s.hires := rfl
@[simp] theorem State.setResultFlag_drawFlag (x : Nibble) (b f : Byte) : (s.setResultFlag x b f).drawFlag = s.drawFlag := rfl
@[simp] theorem State.setResultFlag_fault (x : Nibble) (b f : Byte) : (s.setResultFlag x b f).fault = s.fault := rfl
@[simp] theorem State.setResultFlag_quirks (x : Nibble) (b f : Byte) : (s.setResultFlag x b f).quirks = s.quirks := rfl
@[simp] theorem State.setResultFlag_font (x : Nibble) (b f : Byte) : (s.setResultFlag x b f).font = s.font := rfl
@[simp] theorem State.setResultFlag_paused (x : Nibble) (b f : Byte) : (s.setResultFlag x b f).paused = s.paused := rfl
@[simp] theorem State.setResultFlag_freeDraws (x : Nibble) (b f : Byte) : (s.setResultFlag x b f).freeDraws = s.freeDraws := rfl
@[simp] theorem State.setResultFlag_byte (x : Nibble) (b f : Byte) (n : Nat) : (s.setResultFlag x b f).byte n = s.byte n := rfl
@[simp] theorem State.setResultFlag_pixel (x : Nibble) (b f : Byte) (row col : Nat) : (s.setResultFlag x b f).pixel row col = s.pixel row col := rfl
@[simp] theorem State.setResultFlag_keyPressed (x : Nibble) (b f : Byte) (n : Nat) : (s.setResultFlag x b f).keyPressed n = s.keyPressed n := rfl
@[simp] theorem State.setResultFlag_faulted (x : Nibble) (b f : Byte) : (s.setResultFlag x b f).faulted = s.faulted := rfl

theorem State.keyPressed_setKey (k j : Nat) (b : Bool) (hk : k < 16) :
    (s.setKey k b).keyPressed j = if j = k then b else s.keyPressed j := by
  simp only [State.keyPressed, State.setKey, Vector.getElem?_setIfInBounds]
  by_cases h : j = k
  · subst h; simp [hk]
  · simp [h, Ne.symm h]

end Sys2Proof.Machine
end

