-- ==== Sys2Proof/Laws/Ops.lean ====
section
/-! SUPPORT. One lemma per shared operation that says everything it can do: the store, the fetch, the key search and
the key-wait scan, the effective-address forms, the tick. -/

namespace Sys2Proof.Machine

/-! ### Frames -/

theorem SameOutside.rfl' {ps : List Part} (s : State) : SameOutside ps s s := by
  constructor <;> intros <;> simp

theorem SameOutside.mono {ps qs : List Part} {s t : State} (h : SameOutside ps s t) (hs : ∀ p ∈ ps, p ∈ qs) :
    SameOutside qs s t :=
  ⟨fun k => h.memory (fun m => k (hs _ m)), fun k => h.regs (fun m => k (hs _ m)), fun k => h.index (fun m => k (hs _ m)),
    fun k => h.pc (fun m => k (hs _ m)), fun k => h.stack (fun m => k (hs _ m)), fun k => h.dt (fun m => k (hs _ m)),
    fun k => h.st (fun m => k (hs _ m)), fun k => h.display (fun m => k (hs _ m)), fun k => h.keys (fun m => k (hs _ m)),
    fun k => h.keyWait (fun m => k (hs _ m)), fun k => h.hires (fun m => k (hs _ m)),
    fun k => h.drawFlag (fun m => k (hs _ m)), fun k => h.fault (fun m => k (hs _ m)),
    fun k => h.quirks (fun m => k (hs _ m)), fun k => h.font (fun m => k (hs _ m)),
    fun k => h.paused (fun m => k (hs _ m)), fun k => h.draws (fun m => k (hs _ m))⟩

theorem SameOutside.trans {ps : List Part} {s t u : State} (h : SameOutside ps s t) (k : SameOutside ps t u) :
    SameOutside ps s u :=
  ⟨fun n a => (k.memory n a).trans (h.memory n a), fun n r => (k.regs n r).trans (h.regs n r),
    fun n => (k.index n).trans (h.index n), fun n => (k.pc n).trans (h.pc n),
    fun n => ⟨(k.stack n).1.trans (h.stack n).1, (k.stack n).2.trans (h.stack n).2⟩,
    fun n => (k.dt n).trans (h.dt n), fun n => (k.st n).trans (h.st n), fun n => (k.display n).trans (h.display n),
    fun n => (k.keys n).trans (h.keys n),
    fun n => ⟨(k.keyWait n).1.trans (h.keyWait n).1, (k.keyWait n).2.trans (h.keyWait n).2⟩,
    fun n => (k.hires n).trans (h.hires n), fun n => (k.drawFlag n).trans (h.drawFlag n),
    fun n => (k.fault n).trans (h.fault n), fun n => (k.quirks n).trans (h.quirks n), fun n => (k.font n).trans (h.font n),
   
    fun n => (k.paused n).trans (h.paused n), fun n => (k.draws n).trans (h.draws n)⟩

/-! ### Memory through the state -/

/-- After reset every address reads as the reset contents of the core's own font. -/
@[simp] theorem State.byte_resetWith (f : Font) (q : Quirks) (p : Bool) (k n : Nat) :
    (State.resetWith f q p k).byte n = resetByte f n := rfl

/-- A store of a run of bytes that lies in memory: each byte of it, and every other byte as before. -/
theorem State.byte_store (s : State) (a n : Nat) (bs : List Byte) (h : a + bs.length ≤ memSize) :
    (s.store a bs).byte n = if hn : a ≤ n ∧ n < a + bs.length then bs[n - a] else s.byte n :=
  Memory.read_writeBytes bs s.mem a n h

/-- A store keeps memory canonical. -/
theorem State.store_wf (s : State) (a : Nat) (bs : List Byte) (h : Memory.wf s.font s.mem = true) :
    Memory.wf s.font (s.store a bs).mem = true :=
  Memory.wf_writeBytes a bs h

theorem State.regsUpTo_length (s : State) (x : Nibble) : (s.regsUpTo x).length = x.toNat + 1 := by
  have := x.isLt
  simp [State.regsUpTo]; omega

theorem State.regsUpTo_getElem (s : State) (x r : Nibble) (h : r.toNat < (s.regsUpTo x).length) :
    (s.regsUpTo x)[r.toNat] = s.reg r := by
  simp [State.regsUpTo, State.reg]

@[simp] theorem State.loadedRegs_reg (s : State) (x r : Nibble) :
    (s.setRegs (s.loadedRegs x)).reg r =
      if r.toNat ≤ x.toNat then s.byte (s.index.toNat + r.toNat) else s.reg r := by
  simp [State.reg, State.loadedRegs, State.effAddr]

/-! ### The checks of a meaning -/

@[simp] theorem State.inRange_iff (s : State) (k : Nat) : s.inRange k = true ↔ s.index.toNat + k ≤ 0xFFF :=
  decide_eq_true_iff (p := s.effAddr k ≤ 0xFFF)

@[simp] theorem State.isDigit_iff (s : State) (x : Nibble) : s.isDigit x = true ↔ (s.reg x).toNat ≤ 15 := by
  simp [State.isDigit]

theorem State.spriteInRange_iff (s : State) (y n : Nibble) :
    s.spriteInRange y n = true ↔
      s.visibleRows y n = 0 ∨ s.index.toNat + (s.visibleRows y n - 1) ≤ 0xFFF := by
  simp [State.spriteInRange]

theorem State.visibleRows_le (s : State) (y n : Nibble) : s.originRow y + s.visibleRows y n ≤ 32 := by
  simp only [State.visibleRows, State.originRow]; omega

@[simp] theorem State.indexAfterBlock_toNat (s : State) (x : Nibble) :
    (s.indexAfterBlock x).toNat =
      if s.quirks.loadStoreInc = true then (s.index.toNat + x.toNat + 1) % 4096 else s.index.toNat := by
  unfold State.indexAfterBlock; split <;> simp

/-! ### Fetch -/

theorem wordOfBytes_toNat (hi lo : Byte) : (wordOfBytes hi lo).toNat = 256 * hi.toNat + lo.toNat := by
  simp only [wordOfBytes, BitVec.toNat_append]
  rw [← Nat.shiftLeft_add_eq_or_of_lt lo.isLt, Nat.shiftLeft_eq]
  omega

theorem fetch_eq_none_iff (s : State) : fetch s = none ↔ 0xFFE < s.pc.toNat := by
  simp [fetch]

theorem fetch_of_le (s : State) (h : s.pc.toNat ≤ 0xFFE) :
    fetch s = some (wordOfBytes (s.byte s.pc.toNat) (s.byte (s.pc.toNat + 1))) := by
  simp [fetch, Nat.not_lt.mpr h]

/-! ### Keys -/

/-- The key search finds k exactly when k is a pressed key and no lower key is pressed. -/
theorem firstKey_eq_some_iff (s : State) (k : Nat) :
    firstKey s = some k ↔ k < 16 ∧ s.keyPressed k = true ∧ ∀ j, j < k → s.keyPressed j = false := by
  simp only [firstKey, List.find?_range_eq_some]
  grind

theorem firstKey_eq_none_iff (s : State) : firstKey s = none ↔ ∀ k, k < 16 → s.keyPressed k = false := by
  simp [firstKey]

/-- The scan with no key down changes nothing. -/
theorem keyWaitScan_of_none (s : State) (h : firstKey s = none) : keyWaitScan s = s := by
  simp [keyWaitScan, h]

/-- The scan with lowest pressed key k writes k to the recorded register and ends the wait. -/
theorem keyWaitScan_of_some (s : State) (k : Nat) (h : firstKey s = some k) :
    keyWaitScan s = { s.setReg s.keyRegister (BitVec.ofNat 8 k) with waitingForKey := false } := by
  simp [keyWaitScan, h]

/-! ### Timers -/

@[simp] theorem tickDown_toNat (t : Byte) : (tickDown t).toNat = t.toNat - 1 := by
  unfold tickDown
  split
  · have h : (1 : Byte) ≤ t := BitVec.le_def.mpr ‹0 < t.toNat›
    rw [BitVec.toNat_sub_of_le h]; rfl
  · omega

end Sys2Proof.Machine
end

