-- ==== Sys2Proof/Laws/PerInstr.lean ====
section
/-! SUPPORT. Facts about each instruction as syntax, one lemma per constructor: the family TableRow says that an
instruction's word selects the instruction's own row of the opcode table (spec/30_encoding.md R66). -/

/-- The instruction's row is a row of the table, and its word selects it. -/
def Sys2Proof.Laws.TableRow.Statement (i : Sys2Proof.Instr) : Prop :=
  Sys2Proof.rowOf i ∈ Sys2Proof.opcodeTable ∧ (Sys2Proof.rowOf i).selects (Sys2Proof.encode i) = true

namespace Sys2Proof.Laws

open Sys2Proof

/-! How a mask reads a word of each format of R63. -/

theorem select_nnn (t : Nibble) (a : Addr) : ((t ++ a : Word) &&& 0xF000) = (t ++ 0#12 : Word) := by
  ext i hi
  simp only [BitVec.getElem_and, BitVec.getElem_append]
  interval_cases i <;> simp

theorem select_xnn (t x : Nibble) (b : Byte) : ((t ++ x ++ b : Word) &&& 0xF000) = (t ++ 0#12 : Word) := by
  ext i hi
  simp only [BitVec.getElem_and, BitVec.getElem_append]
  interval_cases i <;> simp

theorem select_xy (t x y f : Nibble) : ((t ++ x ++ y ++ f : Word) &&& 0xF00F) = (t ++ 0#8 ++ f : Word) := by
  ext i hi
  simp only [BitVec.getElem_and, BitVec.getElem_append]
  interval_cases i <;> simp

theorem select_xyn (t x y n : Nibble) : ((t ++ x ++ y ++ n : Word) &&& 0xF000) = (t ++ 0#12 : Word) := by
  ext i hi
  simp only [BitVec.getElem_and, BitVec.getElem_append]
  interval_cases i <;> simp

theorem select_x (t x : Nibble) (f : Byte) : ((t ++ x ++ f : Word) &&& 0xF0FF) = (t ++ 0#4 ++ f : Word) := by
  ext i hi
  simp only [BitVec.getElem_and, BitVec.getElem_append]
  interval_cases i <;> simp

theorem select_n (n : Nibble) : ((0x00C#12 ++ n : Word) &&& 0xFFF0) = 0x00C0 := by
  revert n; decide

/-! The lemmas of the family TableRow. -/

theorem TableRow.scd (n : Nibble) : TableRow.Statement (.scd n) :=
  ⟨by simp [opcodeTable, rowOf], decide_eq_true (select_n n)⟩

theorem TableRow.cls : TableRow.Statement (.cls) :=
  ⟨by simp [opcodeTable, rowOf], by decide⟩

theorem TableRow.ret : TableRow.Statement (.ret) :=
  ⟨by simp [opcodeTable, rowOf], by decide⟩

theorem TableRow.low : TableRow.Statement (.low) :=
  ⟨by simp [opcodeTable, rowOf], by decide⟩

theorem TableRow.high : TableRow.Statement (.high) :=
  ⟨by simp [opcodeTable, rowOf], by decide⟩

theorem TableRow.jp (nnn : Addr) : TableRow.Statement (.jp nnn) :=
  ⟨by simp [opcodeTable, rowOf], decide_eq_true (select_nnn 0x1 nnn)⟩

theorem TableRow.call (nnn : Addr) : TableRow.Statement (.call nnn) :=
  ⟨by simp [opcodeTable, rowOf], decide_eq_true (select_nnn 0x2 nnn)⟩

theorem TableRow.seImm (x : Nibble) (nn : Byte) : TableRow.Statement (.seImm x nn) :=
  ⟨by simp [opcodeTable, rowOf], decide_eq_true (select_xnn 0x3 x nn)⟩

theorem TableRow.sneImm (x : Nibble) (nn : Byte) : TableRow.Statement (.sneImm x nn) :=
  ⟨by simp [opcodeTable, rowOf], decide_eq_true (select_xnn 0x4 x nn)⟩

theorem TableRow.seReg (x : Nibble) (y : Nibble) : TableRow.Statement (.seReg x y) :=
  ⟨by simp [opcodeTable, rowOf], decide_eq_true (select_xy 0x5 x y 0x0)⟩

theorem TableRow.ldImm (x : Nibble) (nn : Byte) : TableRow.Statement (.ldImm x nn) :=
  ⟨by simp [opcodeTable, rowOf], decide_eq_true (select_xnn 0x6 x nn)⟩

theorem TableRow.addImm (x : Nibble) (nn : Byte) : TableRow.Statement (.addImm x nn) :=
  ⟨by simp [opcodeTable, rowOf], decide_eq_true (select_xnn 0x7 x nn)⟩

theorem TableRow.ldReg (x : Nibble) (y : Nibble) : TableRow.Statement (.ldReg x y) :=
  ⟨by simp [opcodeTable, rowOf], decide_eq_true (select_xy 0x8 x y 0x0)⟩

theorem TableRow.orReg (x : Nibble) (y : Nibble) : TableRow.Statement (.orReg x y) :=
  ⟨by simp [opcodeTable, rowOf], decide_eq_true (select_xy 0x8 x y 0x1)⟩

theorem TableRow.andReg (x : Nibble) (y : Nibble) : TableRow.Statement (.andReg x y) :=
  ⟨by simp [opcodeTable, rowOf], decide_eq_true (select_xy 0x8 x y 0x2)⟩

theorem TableRow.xorReg (x : Nibble) (y : Nibble) : TableRow.Statement (.xorReg x y) :=
  ⟨by simp [opcodeTable, rowOf], decide_eq_true (select_xy 0x8 x y 0x3)⟩

theorem TableRow.addReg (x : Nibble) (y : Nibble) : TableRow.Statement (.addReg x y) :=
  ⟨by simp [opcodeTable, rowOf], decide_eq_true (select_xy 0x8 x y 0x4)⟩

theorem TableRow.subReg (x : Nibble) (y : Nibble) : TableRow.Statement (.subReg x y) :=
  ⟨by simp [opcodeTable, rowOf], decide_eq_true (select_xy 0x8 x y 0x5)⟩

theorem TableRow.shr (x : Nibble) (y : Nibble) : TableRow.Statement (.shr x y) :=
  ⟨by simp [opcodeTable, rowOf], decide_eq_true (select_xy 0x8 x y 0x6)⟩

theorem TableRow.subn (x : Nibble) (y : Nibble) : TableRow.Statement (.subn x y) :=
  ⟨by simp [opcodeTable, rowOf], decide_eq_true (select_xy 0x8 x y 0x7)⟩

theorem TableRow.shl (x : Nibble) (y : Nibble) : TableRow.Statement (.shl x y) :=
  ⟨by simp [opcodeTable, rowOf], decide_eq_true (select_xy 0x8 x y 0xE)⟩

theorem TableRow.sneReg (x : Nibble) (y : Nibble) : TableRow.Statement (.sneReg x y) :=
  ⟨by simp [opcodeTable, rowOf], decide_eq_true (select_xy 0x9 x y 0x0)⟩

theorem TableRow.ldI (nnn : Addr) : TableRow.Statement (.ldI nnn) :=
  ⟨by simp [opcodeTable, rowOf], decide_eq_true (select_nnn 0xA nnn)⟩

theorem TableRow.jpV0 (nnn : Addr) : TableRow.Statement (.jpV0 nnn) :=
  ⟨by simp [opcodeTable, rowOf], decide_eq_true (select_nnn 0xB nnn)⟩

theorem TableRow.rnd (x : Nibble) (nn : Byte) : TableRow.Statement (.rnd x nn) :=
  ⟨by simp [opcodeTable, rowOf], decide_eq_true (select_xnn 0xC x nn)⟩

theorem TableRow.drw (x : Nibble) (y : Nibble) (n : Nibble) : TableRow.Statement (.drw x y n) :=
  ⟨by simp [opcodeTable, rowOf], decide_eq_true (select_xyn 0xD x y n)⟩

theorem TableRow.skp (x : Nibble) : TableRow.Statement (.skp x) :=
  ⟨by simp [opcodeTable, rowOf], decide_eq_true (select_x 0xE x 0x9E)⟩

theorem TableRow.sknp (x : Nibble) : TableRow.Statement (.sknp x) :=
  ⟨by simp [opcodeTable, rowOf], decide_eq_true (select_x 0xE x 0xA1)⟩

theorem TableRow.ldVxDt (x : Nibble) : TableRow.Statement (.ldVxDt x) :=
  ⟨by simp [opcodeTable, rowOf], decide_eq_true (select_x 0xF x 0x07)⟩

theorem TableRow.ldVxK (x : Nibble) : TableRow.Statement (.ldVxK x) :=
  ⟨by simp [opcodeTable, rowOf], decide_eq_true (select_x 0xF x 0x0A)⟩

theorem TableRow.ldDtVx (x : Nibble) : TableRow.Statement (.ldDtVx x) :=
  ⟨by simp [opcodeTable, rowOf], decide_eq_true (select_x 0xF x 0x15)⟩

theorem TableRow.ldStVx (x : Nibble) : TableRow.Statement (.ldStVx x) :=
  ⟨by simp [opcodeTable, rowOf], decide_eq_true (select_x 0xF x 0x18)⟩

theorem TableRow.addI (x : Nibble) : TableRow.Statement (.addI x) :=
  ⟨by simp [opcodeTable, rowOf], decide_eq_true (select_x 0xF x 0x1E)⟩

theorem TableRow.ldF (x : Nibble) : TableRow.Statement (.ldF x) :=
  ⟨by simp [opcodeTable, rowOf], decide_eq_true (select_x 0xF x 0x29)⟩

theorem TableRow.ldHf (x : Nibble) : TableRow.Statement (.ldHf x) :=
  ⟨by simp [opcodeTable, rowOf], decide_eq_true (select_x 0xF x 0x30)⟩

theorem TableRow.ldB (x : Nibble) : TableRow.Statement (.ldB x) :=
  ⟨by simp [opcodeTable, rowOf], decide_eq_true (select_x 0xF x 0x33)⟩

theorem TableRow.ldMemVx (x : Nibble) : TableRow.Statement (.ldMemVx x) :=
  ⟨by simp [opcodeTable, rowOf], decide_eq_true (select_x 0xF x 0x55)⟩

theorem TableRow.ldVxMem (x : Nibble) : TableRow.Statement (.ldVxMem x) :=
  ⟨by simp [opcodeTable, rowOf], decide_eq_true (select_x 0xF x 0x65)⟩

theorem TableRow.ldRVx (x : Nibble) : TableRow.Statement (.ldRVx x) :=
  ⟨by simp [opcodeTable, rowOf], decide_eq_true (select_x 0xF x 0x75)⟩

theorem TableRow.ldVxR (x : Nibble) : TableRow.Statement (.ldVxR x) :=
  ⟨by simp [opcodeTable, rowOf], decide_eq_true (select_x 0xF x 0x85)⟩

end Sys2Proof.Laws
end

