-- ==== Sys2Proof/Laws/Step.lean ====
section
/-! SUPPORT. What one cycle can do, said once: the four ways of R81 and the three ways of a fetch. Provers split on
this instead of unfolding `step`. -/

namespace Sys2Proof.Machine

/-- Every way a cycle can go, with its guard, its answer and its outcome. -/
theorem step_cases (s : State) :
    (s.paused = true ∧ step s = .next s ∧ cycleOutcome s = .paused) ∨
    (s.paused = false ∧ s.faulted = true ∧ step s = .next s ∧ cycleOutcome s = .faulted) ∨
    (s.paused = false ∧ s.faulted = false ∧ s.waitingForKey = true ∧ step s = .next (keyWaitScan s) ∧
      ((firstKey s = none ∧ cycleOutcome s = .waiting) ∨
        ∃ k, firstKey s = some k ∧ cycleOutcome s = .keyCaptured)) ∨
    (s.running = true ∧ fetch s = none ∧ step s = .next (fetchFault s) ∧
      cycleOutcome s = .newFault .fetchOutOfRange) ∨
    (s.running = true ∧ ∃ w v, fetch s = some w ∧ decodeWord w = .unknown v ∧ step s = .next (execUnknown s) ∧
      cycleOutcome s = .unknown v) ∨
    (s.running = true ∧ ∃ w i, fetch s = some w ∧ decodeWord w = .instr i ∧ step s = exec i s ∧
      cycleOutcome s = executeOutcome w (exec i s)) := by
  unfold step cycleOutcome State.running
  cases hp : s.paused
  · cases hf : s.faulted
    · cases hw : s.waitingForKey
      · cases hx : fetch s with
        | none => simp
        | some w => cases hd : decodeWord w <;> simp [hd]
      · cases hk : firstKey s <;> simp
    · simp
  · simp

end Sys2Proof.Machine
end

