-- ==== Sys2Proof/Tests/Slice0.lean ====
section
/-! SUPPORT. The model's own tests. Every expected value is from spec/95_test_vectors.md (the vector's number stands
beside the test) or worked by hand from the rule named; none is an answer of the model. Then one witness or more for
the hypotheses of each obligation that has some. -/

namespace Sys2Proof.Tests

open Sys2Proof.Machine

/-! ### Helpers -/

/-- A core just reset, not paused, with the given quirk flags. -/
def core3 (shift inc jump : Bool) : State := State.resetWith defaultFont ⟨shift, inc, jump⟩ false 0

/-- All quirk flags set. -/
def on : State := core3 true true true

/-- All quirk flags clear. -/
def off : State := core3 false false false

/-- Does one cycle of `s`, with the word `w` placed at PC, answer a next state with the property `p`? -/
def after (s : State) (w : Nat) (p : State → Bool) : Bool :=
  match step (s.withFetchWord 16 w) with
  | .next t => p t
  | _ => false

/-- Does one cycle of `s` as it stands answer a next state with the property `p`? -/
def cycled (s : State) (p : State → Bool) : Bool :=
  match step s with
  | .next t => p t
  | _ => false

/-- The fault record as (number, pc, op). -/
def rec3 (s : State) : Nat × Nat × Nat := (s.fault.number.toNat, s.fault.pc.toNat, s.fault.op.toNat)

/-- PC as a number. -/
def pcOf (s : State) : Nat := s.pc.toNat

/-- The pixels set, as (row, col), looked for in the given rows and columns. -/
def lit (s : State) (rows cols : List Nat) : List (Nat × Nat) :=
  rows.flatMap fun r => (cols.filter fun c => s.pixel r c).map fun c => (r, c)

/-- A state waiting for a key for V1, with the given keys down (V147, V148). -/
def waitingFor (ks : List Nat) : State :=
  ks.foldl (fun s k => s.setKey k true) ({ (on.jump 0x206) with waitingForKey := true, keyRegister := 1 } : State)

/-! ### Well-formedness: an ill-formed term for each check -/

/-- Every instruction is well formed: its fields cannot be out of range (R62, R64). -/
theorem test_every_instr_wf (i : Instr) : i.wf = true := by cases i <;> rfl

/-- S8: 3584 bytes fit, 3585 do not. -/
theorem test_rom_fits : romFits (List.replicate 3584 0) = true ∧ romFits (List.replicate 3585 0) = false := by
  constructor <;> unfold romFits <;> rw [List.length_replicate] <;> decide

/-- R215: the key indices are 0 to 15. -/
theorem test_key_index : keyIndexOk 0 = true ∧ keyIndexOk 15 = true ∧ keyIndexOk 16 = false ∧ keyIndexOk (-1) = false := by
  decide

/-! ### Decoding: each constructor's word, written out bit by bit from its row of R66 -/

theorem test_decode_system : decodeWord 0b0000000011000000 = .instr (.scd 0) ∧
    decodeWord 0b0000000011001111 = .instr (.scd 15) ∧ decodeWord 0b0000000011100000 = .instr .cls ∧
    decodeWord 0b0000000011101110 = .instr .ret ∧ decodeWord 0b0000000011111110 = .instr .low ∧
    decodeWord 0b0000000011111111 = .instr .high := by decide

theorem test_decode_jumps : decodeWord 0b0001000110100010 = .instr (.jp 0x1A2) ∧
    decodeWord 0b0010001000010000 = .instr (.call 0x210) ∧ decodeWord 0b1011001100000000 = .instr (.jpV0 0x300) ∧
    decodeWord 0b1010001100000001 = .instr (.ldI 0x301) := by decide

theorem test_decode_skips : decodeWord 0b0011000100000010 = .instr (.seImm 1 0x02) ∧
    decodeWord 0b0100000100010001 = .instr (.sneImm 1 0x11) ∧ decodeWord 0b0101000100100000 = .instr (.seReg 1 2) ∧
    decodeWord 0b1001000100100000 = .instr (.sneReg 1 2) := by decide

theorem test_decode_immediate : decodeWord 0b0110001101000101 = .instr (.ldImm 3 0x45) ∧
    decodeWord 0b0111000000000101 = .instr (.addImm 0 0x05) ∧ decodeWord 0b1100000100001111 = .instr (.rnd 1 0x0F) := by
  decide

theorem test_decode_alu : decodeWord 0b1000000100100000 = .instr (.ldReg 1 2) ∧
    decodeWord 0b1000000100100001 = .instr (.orReg 1 2) ∧ decodeWord 0b1000000100100010 = .instr (.andReg 1 2) ∧
    decodeWord 0b1000000100100011 = .instr (.xorReg 1 2) ∧ decodeWord 0b1000000100100100 = .instr (.addReg 1 2) ∧
    decodeWord 0b1000000100100101 = .instr (.subReg 1 2) ∧ decodeWord 0b1000000100100110 = .instr (.shr 1 2) ∧
    decodeWord 0b1000000100100111 = .instr (.subn 1 2) ∧ decodeWord 0b1000000100101110 = .instr (.shl 1 2) := by decide

theorem test_decode_draw_and_keys : decodeWord 0b1101101010110100 = .instr (.drw 10 11 4) ∧
    decodeWord 0b1110001010011110 = .instr (.skp 2) ∧ decodeWord 0b1110001010100001 = .instr (.sknp 2) := by decide

theorem test_decode_misc_low : decodeWord 0b1111001000000111 = .instr (.ldVxDt 2) ∧
    decodeWord 0b1111000100001010 = .instr (.ldVxK 1) ∧ decodeWord 0b1111000000010101 = .instr (.ldDtVx 0) ∧
    decodeWord 0b1111000000011000 = .instr (.ldStVx 0) ∧ decodeWord 0b1111001000011110 = .instr (.addI 2) ∧
    decodeWord 0b1111000000101001 = .instr (.ldF 0) := by decide

theorem test_decode_misc_high : decodeWord 0b1111000100110000 = .instr (.ldHf 1) ∧
    decodeWord 0b1111000000110011 = .instr (.ldB 0) ∧ decodeWord 0b1111001001010101 = .instr (.ldMemVx 2) ∧
    decodeWord 0b1111001001100101 = .instr (.ldVxMem 2) ∧ decodeWord 0b1111000101110101 = .instr (.ldRVx 1) ∧
    decodeWord 0b1111000110000101 = .instr (.ldVxR 1) := by decide

/-- The unknown words among the decode vectors of section 2.1. -/
theorem test_decode_unknown : ([0x00D0, 0x00E1, 0x00FB, 0x00FC, 0x00FD, 0x0123, 0x5121, 0x8128, 0x812F, 0x9121] ++
    [0xE09F, 0xF056, 0xFFFF, 0x0000, 0x01E0, 0x01C0]).map (decodeTableWord 16) = List.replicate 16 none := by decide

/-- The host's numbering of a table row's bits is that of the word. -/
theorem test_decodeTableWord : decodeTableWord 16 0x6345 = some (.ldImm 3 0x45) ∧ decodeTableWord 16 0x5121 = none := by
  decide

/-- R61: "0x6345 is the bytes 0x63, 0x45 in ascending address order". -/
theorem test_encode_bytes : highByte (encode (.ldImm 3 0x45)) = 0x63 ∧ lowByte (encode (.ldImm 3 0x45)) = 0x45 := by decide

/-! ### Disassembly (S2) -/

theorem test_disassemble : disassembleChars 0x11A2 = ['J', 'P', ' ', '$', '1', 'A', '2'] ∧
    disassembleChars 0x6345 = ['L', 'D', ' ', 'V', '3', ',', ' ', '$', '4', '5'] ∧
    disassembleChars 0xDAB4 = ['D', 'R', 'W', ' ', 'V', 'A', ',', ' ', 'V', 'B', ',', ' ', '4'] ∧
    disassembleChars 0xE29E = ['S', 'K', 'P', ' ', 'V', '2'] ∧
    disassembleChars 0x5121 = ['?', '?', '?', ' ', '$', '5', '1', '2', '1'] := by decide

theorem test_disassemble_text : disassemble 0x11A2 = "JP $1A2" := by decide

/-! ### The cycle (section 2.1) -/

theorem test_V1_paused : cycled (setPaused true (on.store 0x200 [0x60, 0x0A])) (fun t => t.reg 0 == 0 && pcOf t == 0x200) = true := by
  decide

theorem test_V2_faulted : cycled { on with fault := ⟨some .stackOverflow, 0x200, 0x2200⟩ }
    (fun t => rec3 t == (3, 0x200, 0x2200) && pcOf t == 0x200) = true := by decide

theorem test_V4_unknown : after on 0x5121 (fun t => pcOf t == 0x202 && !t.faulted) = true ∧
    cycleOutcome (on.withFetchWord 16 0x5121) = .unknown 0x5121 := by decide

theorem test_V5_fetch_at_end : cycled (on.jump 0xFFE) (fun t => pcOf t == 0x1000 && !t.faulted) = true ∧
    cycled (on.jump 0x1000) (fun t => pcOf t == 0x1000 && rec3 t == (1, 0x1000, 0)) = true := by decide

theorem test_V6_fetch_fault : cycled (on.jump 0xFFF) (fun t => pcOf t == 0xFFF && rec3 t == (1, 0xFFF, 0)) = true := by
  decide

/-- V7, V8: paused comes before faulted and before the scan. -/
theorem test_V8_paused_before_scan : cycled (setPaused true (waitingFor [4])) (fun t => t.waitingForKey && t.reg 1 == 0) = true := by
  decide

/-- S3: an odd PC, with the ROM of S1. -/
theorem test_S3_fetch_odd : fetch ((on.store 0x200 [0x60, 0x0A, 0x70, 0x05]).jump 0x201) = some 0x0A70 := by decide

/-! ### Control flow (section 2.2) -/

theorem test_V10_jp : after on 0x11A2 (fun t => pcOf t == 0x1A2) = true := by decide

theorem test_V14_call : after { on with sp := 15 } 0x2210
    (fun t => pcOf t == 0x210 && t.sp == 16 && t.stack[15] == 0x202) = true := by decide

theorem test_V15_call_overflow : after { on with sp := 16 } 0x2210
    (fun t => pcOf t == 0x200 && t.sp == 16 && rec3 t == (3, 0x200, 0x2210)) = true := by decide

theorem test_V16_ret : after ({ on with sp := 1, stack := on.stack.set 0 0x206 }) 0x00EE
    (fun t => pcOf t == 0x206 && t.sp == 0 && t.stack[0] == 0x206) = true := by decide

theorem test_V17_ret_underflow : after on 0x00EE (fun t => pcOf t == 0x200 && rec3 t == (4, 0x200, 0x00EE)) = true := by
  decide

theorem test_V18_V19_jpV0 : after ((on.setReg 0 4).setReg 3 0x10) 0xB300 (fun t => pcOf t == 0x304) = true ∧
    after ((off.setReg 0 4).setReg 3 0x10) 0xB300 (fun t => pcOf t == 0x310) = true := by decide

theorem test_V20_jpV0_unmasked : after (off.setReg 15 0xFF) 0xBFFF (fun t => pcOf t == 0x10FE) = true := by decide

theorem test_V21_V22_se : after on 0x3000 (fun t => pcOf t == 0x204) = true ∧
    after (on.setReg 0 1) 0x3000 (fun t => pcOf t == 0x202) = true := by decide

theorem test_V23_V24_sne : after (on.setReg 1 0x10) 0x4110 (fun t => pcOf t == 0x202) = true ∧
    after (on.setReg 1 0x10) 0x4111 (fun t => pcOf t == 0x204) = true := by decide

theorem test_V25_se_reg : after ((on.setReg 1 7).setReg 2 7) 0x5120 (fun t => pcOf t == 0x204) = true ∧
    after (on.setReg 1 7) 0x5120 (fun t => pcOf t == 0x202) = true := by decide

theorem test_V27_V28_sne_reg : after ((on.setReg 1 7).setReg 2 8) 0x9120 (fun t => pcOf t == 0x204) = true ∧
    after on 0x9440 (fun t => pcOf t == 0x202) = true := by decide

/-! ### Load and ALU (section 2.3) -/

theorem test_V40_V41_ld : after on 0x6345 (fun t => t.reg 3 == 0x45 && pcOf t == 0x202) = true ∧
    after on 0x6FAB (fun t => t.reg 15 == 0xAB) = true := by decide

theorem test_V43_add_imm_no_flag : after (on.setReg 0 0xFF) 0x7001 (fun t => t.reg 0 == 0 && t.reg 15 == 0) = true := by
  decide

theorem test_V45_ld_reg : after (on.setReg 2 0x33) 0x8120 (fun t => t.reg 1 == 0x33 && t.reg 2 == 0x33) = true := by decide

theorem test_V46_V47_or : after (((on.setReg 1 0x0F).setReg 2 0xF0).setReg 15 1) 0x8121
      (fun t => t.reg 1 == 0xFF && t.reg 15 == 0) = true ∧
    after ((on.setReg 15 0x0F).setReg 2 0xF0) 0x8F21 (fun t => t.reg 15 == 0) = true := by decide

theorem test_V48_and : after (((on.setReg 1 0x3C).setReg 2 0x0F).setReg 15 1) 0x8122
    (fun t => t.reg 1 == 0x0C && t.reg 15 == 0) = true := by decide

theorem test_V49_V50_xor : after (((on.setReg 1 0xFF).setReg 2 0x0F).setReg 15 1) 0x8123
      (fun t => t.reg 1 == 0xF0 && t.reg 15 == 0) = true ∧
    after (on.setReg 1 0x5A) 0x8113 (fun t => t.reg 1 == 0) = true := by decide

theorem test_V51_V52_add : after ((on.setReg 1 0xC8).setReg 2 0x64) 0x8124
      (fun t => t.reg 1 == 0x2C && t.reg 15 == 1) = true ∧
    after (on.setReg 1 0x80) 0x8114 (fun t => t.reg 1 == 0 && t.reg 15 == 1) = true := by decide

/-- V53, V54 and S11: VF as destination keeps the flag, VF as source is the old VF. -/
theorem test_V53_V54_add_vf : after ((on.setReg 15 0xF0).setReg 2 0x20) 0x8F24 (fun t => t.reg 15 == 1) = true ∧
    after ((on.setReg 1 0xFF).setReg 15 1) 0x81F4 (fun t => t.reg 1 == 0 && t.reg 15 == 1) = true := by decide

theorem test_V55_V57_sub : after ((on.setReg 1 5).setReg 2 7) 0x8125 (fun t => t.reg 1 == 0xFE && t.reg 15 == 0) = true ∧
    after (on.setReg 1 0x5A) 0x8115 (fun t => t.reg 1 == 0 && t.reg 15 == 1) = true := by decide

theorem test_V62_V63_subn : after ((on.setReg 1 5).setReg 2 7) 0x8127 (fun t => t.reg 1 == 2 && t.reg 15 == 1) = true ∧
    after ((on.setReg 1 7).setReg 2 5) 0x8127 (fun t => t.reg 1 == 0xFE && t.reg 15 == 0) = true := by decide

theorem test_V58_V59_shr : after ((on.setReg 1 5).setReg 2 0x82) 0x8126
      (fun t => t.reg 1 == 2 && t.reg 15 == 1 && t.reg 2 == 0x82) = true ∧
    after ((off.setReg 1 5).setReg 2 0x82) 0x8126 (fun t => t.reg 1 == 0x41 && t.reg 15 == 0) = true := by decide

theorem test_V64_V65_shl : after ((on.setReg 1 0x81).setReg 2 0x40) 0x812E
      (fun t => t.reg 1 == 2 && t.reg 15 == 1) = true ∧
    after ((off.setReg 1 0x81).setReg 2 0x40) 0x812E (fun t => t.reg 1 == 0x80 && t.reg 15 == 0) = true := by decide

/-- V68: with nn = 0 the result is 0 whatever is drawn; a draw is counted. -/
theorem test_V68_rnd : (match execRnd 1 0 on with | .next t => some (t.reg 1, t.freeDraws) | _ => none) = some (0, 2) := by
  simp [execRnd, State.countDraw, State.advance, State.setReg, State.reg, on, core3, State.resetWith]

/-! ### Index and memory (section 2.4) -/

theorem test_V80_ldI : after on 0xA300 (fun t => t.index == 0x300) = true := by decide

theorem test_V82_V83_addI : after ((on.setIndex 0xFFF).setReg 2 1) 0xF21E (fun t => t.index == 0 && t.reg 15 == 0) = true ∧
    after ((on.setIndex 0xFFF).setReg 2 0xFF) 0xF21E (fun t => t.index == 0x0FE) = true := by decide

theorem test_V85_V86_ldF : after (on.setReg 0 0x0F) 0xF029 (fun t => t.index == 0x04B) = true ∧
    after (on.setReg 0 0x10) 0xF029 (fun t => t.index == 0 && rec3 t == (5, 0x200, 0xF029)) = true := by decide

theorem test_V87_ldHf : execLdHf 1 (on.setReg 1 3) = .next ((on.setReg 1 3).setIndex (Config.hiresFontAddr 3)).advance := rfl

theorem test_V88_V90_ldB : after ((on.setReg 0 0xFE).setIndex 0x300) 0xF033
      (fun t => [0x300, 0x301, 0x302].map t.byte == [2, 5, 4] && t.index == 0x300) = true ∧
    after ((on.setReg 0 0xFF).setIndex 0xFFD) 0xF033 (fun t => [0xFFD, 0xFFE, 0xFFF].map t.byte == [2, 5, 5]) = true := by
  decide

theorem test_V91_ldB_fault : after ((on.setReg 0 0xFF).setIndex 0xFFE) 0xF033
    (fun t => rec3 t == (2, 0x200, 0xF033) && [0xFFE, 0xFFF].map t.byte == [0, 0]) = true := by decide

theorem test_V94_store_all : after ((on.setIndex 0xFF0).setRegs (Vector.ofFn fun i => BitVec.ofNat 8 i.val)) 0xFF55
    (fun t => (List.range 16).map (fun k => (t.byte (0xFF0 + k)).toNat) == List.range 16 && t.index == 0) = true := by decide

theorem test_V92_V95_store : after (((off.setReg 0 1).setReg 1 2).setIndex 0x400) 0xF155
      (fun t => [0x400, 0x401, 0x402].map t.byte == [1, 2, 0] && t.index == 0x400) = true ∧
    after (on.setIndex 0xFF1) 0xFF55 (fun t => rec3 t == (2, 0x200, 0xFF55) && t.index == 0xFF1) = true := by decide

theorem test_V97_load : after (((on.store 0x300 [2, 5, 4]).setIndex 0x300).setReg 3 0x77) 0xF265
    (fun t => [0, 1, 2, 3].map t.reg == [2, 5, 4, 0x77] && t.index == 0x303) = true := by decide

theorem test_V98_V99_load : after off 0xF465
      (fun t => [0, 1, 2, 3, 4].map t.reg == [0xF0, 0x90, 0x90, 0x90, 0xF0] && t.index == 0) = true ∧
    after (on.setIndex 0xFF8) 0xF865 (fun t => rec3 t == (2, 0x200, 0xF865) && t.reg 0 == 0) = true := by decide

/-! ### Display (section 2.5): pixels (row, col) -/

theorem test_V110_cls : after ((on.setReg 15 7).draw (on.display.set 31 (1 <<< 63))) 0x00E0
    (fun t => t.display == on.display && t.drawFlag && t.reg 15 == 7) = true := by decide

theorem test_V111_scd : after (on.draw (on.display.set 30 (1 <<< 5))) 0x00C1
    (fun t => t.display == on.display.set 31 (1 <<< 5) && t.drawFlag) = true := by decide

theorem test_V112_scd_off_bottom : after (on.draw (on.display.set 31 (1 <<< 5))) 0x00C1 (fun t => t.display == on.display) = true := by
  decide

theorem test_V115_V116_hires : after (ackDraw on) 0x00FF (fun t => t.hires && !t.drawFlag) = true ∧
    after (on.setHires true) 0x00FE (fun t => !t.hires) = true := by decide

/-- V120: the origin wraps (126 mod 64 = 62, 63 mod 32 = 31), the body is clipped. -/
theorem test_V120_drw_clip : after ((((on.store 0x20A [0xC0, 0xFF]).setIndex 0x20A).setReg 1 0x7E).setReg 2 0x3F) 0xD122
    (fun t => t.display == on.display.set 31 (3 <<< 62) && t.reg 15 == 0 && t.drawFlag) = true := by decide

/-- V119: F0 then 3C at the origin leaves columns 0, 1, 4, 5 and a collision. -/
theorem test_V119_drw_collision : after (((on.store 0x301 [0x3C]).setIndex 0x301).draw (on.display.set 0 0xF)) 0xD011
    (fun t => lit t [0] (List.range 64) == [(0, 0), (0, 1), (0, 4), (0, 5)] && t.reg 15 == 1) = true := by decide

theorem test_V121_drw_old_vf : after (((on.store 0x300 [0x80]).setIndex 0x300).setReg 15 1) 0xDF01
    (fun t => lit t [0] (List.range 64) == [(0, 1)] && t.reg 15 == 0) = true := by decide

theorem test_V123_V124_drw_range : after ((ackDraw (on.setIndex 0xFFF)).setReg 15 1) 0xD012
      (fun t => rec3 t == (2, 0x200, 0xD012) && t.reg 15 == 1 && !t.drawFlag) = true ∧
    after (((on.store 0xFFF [0x80]).setIndex 0xFFF).setReg 1 31) 0xD012 (fun t => t.pixel 31 0 && !t.faulted) = true := by
  decide

/-! ### Keypad, timers, no-ops (section 2.6) -/

theorem test_V140_V141_skp : after ((on.setReg 2 5).setKey 5 true) 0xE29E (fun t => pcOf t == 0x204) = true ∧
    after (on.setReg 2 5) 0xE29E (fun t => pcOf t == 0x202) = true := by decide

theorem test_V142_skp_fault : after (on.setReg 2 0x10) 0xE29E (fun t => pcOf t == 0x200 && rec3 t == (5, 0x200, 0xE29E)) = true := by
  decide

theorem test_V143_V144_sknp : after (on.setReg 2 5) 0xE2A1 (fun t => pcOf t == 0x204) = true ∧
    after ((on.setReg 2 5).setKey 5 true) 0xE2A1 (fun t => pcOf t == 0x202) = true := by decide

theorem test_V145_sknp_fault : after (on.setReg 2 0xFF) 0xE2A1 (fun t => rec3 t == (5, 0x200, 0xE2A1)) = true := by decide

theorem test_V146_wait : after ((on.setReg 1 9).setKey 3 true) 0xF10A
    (fun t => t.waitingForKey && t.keyRegister == 1 && pcOf t == 0x202 && t.reg 1 == 9) = true := by decide

theorem test_V148_capture : cycled (waitingFor [7, 3]) (fun t => t.reg 1 == 3 && !t.waitingForKey && pcOf t == 0x206) = true ∧
    cycleOutcome (waitingFor [7, 3]) = .keyCaptured := by decide

theorem test_V147_still_waiting : cycled (waitingFor []) (fun t => t.waitingForKey && pcOf t == 0x206) = true ∧
    cycleOutcome (waitingFor []) = .waiting := by decide

theorem test_V149_capture_vf : cycled ({ waitingFor [0] with keyRegister := 15 }.setReg 15 9) (fun t => t.reg 15 == 0) = true := by
  decide

theorem test_V150_V152_timers : after (on.setDt 0x3A) 0xF207 (fun t => t.reg 2 == 0x3A) = true ∧
    after (on.setReg 0 0x3C) 0xF015 (fun t => t.dt == 0x3C && t.st == 0) = true ∧
    after (on.setReg 0 0x05) 0xF018 (fun t => t.st == 0x05 && t.dt == 0) = true := by decide

theorem test_V153_V154_rpl : after on 0xF375 (fun t => pcOf t == 0x202) = true ∧
    after (on.setReg 0 9) 0xF385 (fun t => pcOf t == 0x202 && t.reg 0 == 9) = true ∧
    cycleOutcome (on.withFetchWord 16 0xF375) = .executed := by decide

/-! ### Host operations (sections 2.6, 2.7) -/

theorem test_V155_V156_tick : (updateTimers { on with dt := 2, st := 1 }).dt = 1 ∧ (updateTimers { on with dt := 2, st := 1 }).st = 0 ∧
    (updateTimers on).dt = 0 ∧ (updateTimers { on with dt := 255 }).dt = 254 := by decide

theorem test_V157_V158_keys : (keyDown 3 on).keyPressed 3 = true ∧ (keyUp 3 (keyDown 3 on)).keyPressed 3 = false ∧
    keyDown 16 on = on ∧ keyUp 255 on = on :=
  ⟨by decide, by decide, rfl, rfl⟩

/-- V160: a faulted core still ticks and takes keys. -/
theorem test_V160_faulted_core_ticks :
    (match runEvents [.host .updateTimers, .host (.keyDown 1), .cycle] { on with dt := 5, fault := ⟨some .memOutOfRange, 0, 0⟩ } with
      | .next t => t.dt == 4 && t.keyPressed 1 && t.fault.number == 2
      | _ => false) = true := by decide

/-- V170, V173: reset clears a fault and a wait; an odd ROM leaves the low byte of its last opcode 0. -/
theorem test_V170_V173_load : (loadRom [0xA2] { waitingFor [2] with fault := ⟨some .stackOverflow, 0, 0⟩ }).1 = true ∧
    fetch (loadRom [0xA2] { waitingFor [2] with fault := ⟨some .stackOverflow, 0, 0⟩ }).2 = some 0xA200 ∧
    (loadRom [0xA2] (waitingFor [2])).2.waitingForKey = false ∧ (hostReset (waitingFor [2])).keyPressed 2 = false := by decide

/-- The recognised words run as the first instruction after reset, whatever the open parameters are. -/
theorem test_first_after_reset : ∀ w ∈ [0x00C1, 0x00E0, 0x00EE, 0x2200, 0x8126, 0xB123, 0xC123, 0xD125, 0xF10A, 0xF130, 0xF155, 0xF165],
    after State.reset w (fun _ => true) = true := by decide

/-! ### Witnesses: the hypotheses of the obligations can be met -/

theorem witness_LoadRomResetsThenCopies : (List.replicate 3584 (0 : Byte)).length ≤ 3584 ∧
    3584 < (List.replicate 3585 (0 : Byte)).length := by
  exact ⟨Nat.le_of_eq List.length_replicate, by rw [List.length_replicate]; decide⟩

theorem witness_FetchComposesBigEndian : (on.jump 4094).pc.toNat ≤ 4094 ∧ (on.jump 0x201).pc.toNat ≤ 4094 := by decide

theorem witness_FetchOutsideMemoryFaults : (on.jump 0xFFF).running = true ∧ 0xFFE < (on.jump 0xFFF).pc.toNat := by decide

theorem witness_StepRunsDecodedInstruction : (on.withFetchWord 16 0x6345).running = true ∧
    fetch (on.withFetchWord 16 0x6345) = some 0x6345 ∧ decodeWord 0x6345 = .instr (.ldImm 3 0x45) := by decide

theorem witness_CycleTestsPausedFaultedWaiting : (setPaused true on).paused = true ∧
    ((on.raiseFault .stackOverflow 0).paused = false ∧ (on.raiseFault .stackOverflow 0).faulted = true) ∧
    ((waitingFor [3]).paused = false ∧ (waitingFor [3]).faulted = false ∧ (waitingFor [3]).waitingForKey = true) ∧
    (waitingFor [3]).keyPressed 3 = true ∧ ∀ k, k < 16 → (waitingFor []).keyPressed k = false := by decide

theorem witness_UnknownOpcodeOnlyAdvances : (on.withFetchWord 16 0x5121).running = true ∧
    fetch (on.withFetchWord 16 0x5121) = some 0x5121 ∧ decodeWord 0x5121 = .unknown 0x5121 := by decide

theorem witness_DisassemblyTexts : decodeWord 0x00FB = .unknown 0x00FB ∧ decodeWord 0xFFFF = .unknown 0xFFFF := by decide

theorem witness_DecodeOfEncodeIsIdentity : (Instr.drw 1 2 15).wf = true := rfl

theorem witness_EncodeOfDecodeIsIdentity : decodeWord 0xFFFF = .unknown 0xFFFF ∧ decodeWord 0xFF85 = .instr (.ldVxR 15) := by
  decide

theorem witness_DecodeSelectsTheOneRow : (rowOf (.ldVxR 0)) ∈ opcodeTable ∧ (rowOf (.ldVxR 0)).selects 0xFF85 = true ∧
    (∀ r ∈ opcodeTable, r.selects 0x5121 = false) := by decide

theorem witness_JumpLoadsTarget : (0x200 : Addr).toNat = on.pc.toNat := by decide

theorem witness_CallPushesReturnAddress : ({ on with sp := 15 } : State).sp.val < 16 := by decide

theorem witness_ReturnPopsIntoPc : 0 < ({ on with sp := 16 } : State).sp.val ∧ 0 < ({ on with sp := 1 } : State).sp.val := by
  decide

theorem witness_ReturnUndoesCall : on.sp.val < 16 := by decide

theorem witness_StackLimitsFault : ({ on with sp := 16 } : State).sp.val = 16 ∧ on.sp.val = 0 := by decide

theorem witness_OffsetJumpAddsSelectedRegister : (15 : Nibble).toNat = (0xFFF : Addr).toNat / 256 := by decide

theorem witness_AddAndSubtractWithFlag : 200 = ((on.setReg 1 200).reg 1).toNat ∧ 0 = ((on.setReg 1 200).reg 2).toNat := by decide

theorem witness_ShiftsMoveOnePlace :
    0x81 = (if (on.setReg 1 0x81).quirks.shiftVx = true then ((on.setReg 1 0x81).reg 1).toNat else ((on.setReg 1 0x81).reg 2).toNat) ∧
    0 = (if (off.setReg 1 0x81).quirks.shiftVx = true then ((off.setReg 1 0x81).reg 1).toNat else ((off.setReg 1 0x81).reg 2).toNat) := by
  decide

theorem witness_RandomByteIsMasked : (0x0F : Byte).getLsbD 7 = false := by decide

theorem witness_FontAddressReachesGlyph : ((off.setReg 0 15).reg 0).toNat ≤ 15 ∧
    (∀ a, (h : a < 80) → (off.setReg 0 15).byte a = (off.setReg 0 15).font[a]) ∧ 5 * ((off.setReg 0 15).reg 0).toNat + 4 < 80 :=
  ⟨by decide, by decide, by decide⟩

theorem witness_DecimalDigitsAreStored : (on.setIndex 0xFFD).index.toNat ≤ 0xFFD := by decide

theorem witness_BlockStoreWritesRegisters : (on.setIndex 0xFF0).index.toNat + (15 : Nibble).toNat ≤ 0xFFF ∧
    (off.setIndex 0xFFF).index.toNat + (0 : Nibble).toNat ≤ 0xFFF := by decide

theorem witness_BlockLoadReadsRegisters : (on.setIndex 0xFF0).index.toNat + (15 : Nibble).toNat ≤ 0xFFF := by decide

theorem witness_BlockLoadUndoesBlockStore : off.index.toNat + (15 : Nibble).toNat ≤ 0xFFF ∧
    ∃ t, exec (.ldMemVx 15) off = .next t ∧ (∀ a, t.byte a = t.byte a) ∧ t.index = off.index :=
  ⟨by decide, _, rfl, fun _ => rfl, by decide⟩

/-- P8: `LD [I], V0` at 0x204 with I = 0x206 and V0 = 0x12 turns the word 0x0008 at 0x206 into 0x1208. -/
theorem test_P8_store_one_byte :
    (match execLdMemVx 0 (((on.store 0x206 [0x00, 0x08]).setIndex 0x206).setReg 0 0x12 |>.jump 0x204) with
      | .next t => fetch t == some 0x1208
      | _ => false) = true := by decide

/-- The store of P8 covers the first byte of the next word alone; I = 0xFF0 with x = 15 and I = 0xFFD are the last
places a store fits, and PC = 0xFFC the last PC before a word. -/
theorem witness_NextFetchSeesStoredBytes : (on.jump 0x204).pc.toNat + 2 ≤ 0xFFE ∧ (on.jump 0xFFC).pc.toNat + 2 ≤ 0xFFE ∧
    (on.setIndex 0x206).index.toNat + (0 : Nibble).toNat ≤ 0xFFF ∧ (on.setIndex 0xFF0).index.toNat + (15 : Nibble).toNat ≤ 0xFFF ∧
    (on.setIndex 0xFFD).index.toNat ≤ 0xFFD := by decide

theorem witness_DataOutsideMemoryFaults : 0xFFD < (on.setIndex 0xFFE).index.toNat ∧
    0xFFF < (on.setIndex 0xFF1).index.toNat + (15 : Nibble).toNat ∧ ¬ SpriteFits (on.setIndex 0xFFF) 0 2 :=
  ⟨by decide, by decide, by unfold SpriteFits; decide⟩

theorem witness_OperandOutOfRangeFaults : 15 < ((on.setReg 2 16).reg 2).toNat := by decide

/-- The draw at the top of memory (I + rows − 1 = 0xFFF), the draw of no rows, and the clipped draw of V124. -/
theorem witness_DrawFlipsCoveredPixels : SpriteFits (on.setIndex 0xFFE) 0 2 ∧ SpriteFits (on.setIndex 0xFFF) 0 0 ∧
    SpriteFits ((on.setIndex 0xFFF).setReg 1 31) 1 2 := by unfold SpriteFits; decide

/-- A covered pixel: glyph 0 drawn at the origin covers (0, 0), not (0, 4), and over a set pixel it collides. -/
theorem witness_DrawFlipsCoveredPixels_clauses : SpriteCovers on 0 1 5 0 0 ∧ ¬ SpriteCovers on 0 1 5 0 4 ∧
    (on.draw (on.display.set 0 1)).pixel 0 0 = true ∧ on.pixel 0 0 = false :=
  ⟨⟨0, 0, by decide⟩, fun ⟨r, c, h1, h2, h3, h4, h5, h6, h7⟩ => by
    have hr : r = 0 := by have : spriteY0 on 1 = 0 := by decide
                          omega
    have hc : c = 4 := by have : spriteX0 on 0 = 0 := by decide
                          omega
    subst hr hc
    exact absurd h7 (by decide), by decide, by decide⟩

theorem witness_DrawingTwiceRestoresTheDisplay : (0 : Nibble) ≠ 15 ∧ (1 : Nibble) ≠ 15 ∧ SpriteFits on 1 5 :=
  ⟨by decide, by decide, by unfold SpriteFits; decide⟩

/-- The second draw's hypotheses, met by the state the first draw leaves. -/
theorem witness_DrawingTwiceRestoresTheDisplay_second : ∃ t, exec (.drw 0 1 5) on = .next t ∧ t.display = t.display ∧
    t.index = on.index ∧ t.reg 0 = on.reg 0 ∧ t.reg 1 = on.reg 1 ∧
    (∀ r, r < spriteRows on 1 5 → t.byte (on.index.toNat + r) = on.byte (on.index.toNat + r)) :=
  ⟨_, rfl, rfl, by decide, by decide, by decide, by decide⟩

theorem witness_OnlyDrawingSetsDrawFlag : (∃ t, exec .cls on = .next t ∧ on.faulted = false ∧ isDrawing .cls ∧ t.faulted = false) ∧
    (∃ t, exec .ret on = .next t ∧ t.faulted = true) ∧ ¬ isDrawing .high :=
  ⟨⟨_, rfl, by decide, trivial, by decide⟩, ⟨_, rfl, by decide⟩, id⟩

theorem witness_RegistersWrittenOnlyAsListed : (∃ t, exec (.addReg 1 2) on = .next t) ∧ ¬ mayWriteReg (.addReg 1 2) 2 :=
  ⟨⟨_, rfl⟩, by unfold mayWriteReg; decide⟩

theorem witness_ExecTouchesOnlyDocumentedState : (∃ t, exec (.drw 0 1 5) on = .next t ∧ t.faulted = false) ∧
    (∃ t, exec .ret on = .next t ∧ t.faulted = true) ∧ ¬ mayStoreByte (.ldB 0) (on.setIndex 0x300) 0x303 ∧
    mayStoreByte (.ldB 0) (on.setIndex 0x300) 0x302 ∧ ¬ mayStoreByte (.ldMemVx 2) (on.setIndex 0x300) 0x303 ∧
    ¬ mayWriteEntry (.call 0) on 1 ∧ mayWriteEntry (.call 0) on 0 ∧ ¬ mayWritePixel .ret on 0 0 :=
  ⟨⟨_, rfl, by decide⟩, ⟨_, rfl, by decide⟩, by unfold mayStoreByte; decide, by unfold mayStoreByte; decide,
    by unfold mayStoreByte; decide, by unfold mayWriteEntry; decide, by unfold mayWriteEntry; decide, id⟩

theorem witness_CycleNeverWritesHostInputs : ∃ t, step (waitingFor [3]) = .next t := ⟨_, rfl⟩

theorem witness_FaultsArePrecise : (∃ t, step (on.jump 0xFFF) = .next t ∧ (on.jump 0xFFF).faulted = false ∧ t.fault.code = some .fetchOutOfRange) ∧
    ∃ t, step (on.withFetchWord 16 0x00EE) = .next t ∧ (on.withFetchWord 16 0x00EE).faulted = false ∧ t.fault.code = some .stackUnderflow :=
  ⟨⟨_, rfl, by decide, by decide⟩, ⟨_, rfl, by decide, by decide⟩⟩

theorem witness_FaultIsStickyUntilReset : (on.raiseFault .stackOverflow 0).faulted = true ∧
    (∀ e ∈ [Event.cycle, .host .updateTimers, .host (.keyDown 1)], ¬ clearsFault e) ∧
    ∀ n, n = 3585 → ¬ clearsFault (.host (.loadRom (List.replicate n 0))) := by
  refine ⟨by decide, ?_, ?_⟩
  · intro e he
    simp only [List.mem_cons, List.not_mem_nil, or_false] at he
    rcases he with rfl | rfl | rfl <;> exact id
  · intro n hn
    simp only [clearsFault, List.length_replicate]
    omega

theorem witness_KeyWaitScanCapturesLowestKey : (waitingFor [7, 3]).paused = false ∧ (waitingFor [7, 3]).faulted = false ∧
    (waitingFor [7, 3]).waitingForKey = true ∧ (waitingFor [7, 3]).keyPressed 3 = true ∧
    (∀ j, j < 3 → (waitingFor [7, 3]).keyPressed j = false) ∧ (waitingFor [15]).keyPressed 15 = true ∧
    (∀ j, j < 15 → (waitingFor [15]).keyPressed j = false) ∧ ∀ k, k < 16 → (waitingFor []).keyPressed k = false := by decide

theorem witness_KeyWaitBlocksUntilKey : (waitingFor []).waitingForKey = true ∧ ∀ k, k < 16 → (waitingFor []).keyPressed k = false := by
  decide

theorem witness_KeySkipsSampleTheKey : 15 = ((on.setReg 2 15).reg 2).toNat ∧ 15 < 16 := by decide

theorem witness_RplFormsAreRecognisedNoOps : (on.withFetchWord 16 0xF375).running = true ∧
    fetch (on.withFetchWord 16 0xF375) = some (encode (.ldRVx 3)) := by decide

theorem witness_KeyEventsWriteOneKey : (0 : Int) ≤ 15 ∧ (15 : Int) ≤ 15 ∧ ((-1 : Int) < 0 ∨ 15 < (-1 : Int)) ∧
    ((16 : Int) < 0 ∨ (15 : Int) < 16) := by decide

/-- The invariant holds of a state other than reset's, with a stored byte, a stack entry and the highest PC. -/
theorem witness_StepKeepsTheInvariant :
    ({ (on.store 0x300 [1]).jump 0x10FE with sp := 1, stack := on.stack.set 0 0x1000 } : State).Inv :=
  ⟨by decide, by decide, by decide⟩

theorem witness_RunsKeepTheInvariant : (waitingFor [3]).Inv := ⟨by decide, by decide, by decide⟩

end Sys2Proof.Tests
end

section
/-! SUPPORT. What every instruction and every cycle leaves unchanged, and the statements of spec/10_state.md. -/

namespace Sys2Proof.Machine

/-- The answer `r` is a next state with the property `p`: never a fault of the host's, never a refusal. -/
def Answers (r : Result) (p : State → Prop) : Prop := ∃ t, r = .next t ∧ p t

variable {p q : State → Prop} {s t : State}

theorem Answers.next (h : p t) : Answers (.next t) p := ⟨t, rfl, h⟩

theorem Answers.mono {r : Result} (h : Answers r p) (hpq : ∀ t, p t → q t) : Answers r q := by
  obtain ⟨t, ht, hp⟩ := h
  exact ⟨t, ht, hpq t hp⟩

/-- An answer that a test chooses has a property when each branch has it. -/
theorem Answers.ite {c : Prop} [Decidable c] {r r' : Result} (h : c → Answers r p) (h' : ¬ c → Answers r' p) :
    Answers (if c then r else r') p := by
  split
  · exact h ‹_›
  · exact h' ‹_›

/-- The same for a test whose proof the branches use, as the stack's push and pop do. -/
theorem Answers.dite {c : Prop} [Decidable c] {r : c → Result} {r' : ¬ c → Result} (h : ∀ hc, Answers (r hc) p)
    (h' : ∀ hc, Answers (r' hc) p) : Answers (if hc : c then r hc else r' hc) p := by
  split
  · exact h _
  · exact h' _

/-- The state answered is unique, so it has the property. -/
theorem Answers.of_eq_next {r : Result} (h : Answers r p) (ht : r = .next t) : p t := by
  obtain ⟨u, hu, hp⟩ := h
  cases hu.symm.trans ht
  exact hp

end Sys2Proof.Machine

/-! ## The frame of each state operation and of each instruction -/

namespace Sys2Proof.Machine

variable {ps qs : List Part} {s t u : State}

/-! ### What each named update of the state leaves unchanged -/

theorem State.setReg_frame (s : State) (x : Nibble) (b : Byte) : SameOutside [.regs] s (s.setReg x b) := by
  constructor <;> simp

theorem State.setRegs_frame (s : State) (v : Vector Byte 16) : SameOutside [.regs] s (s.setRegs v) := by
  constructor <;> simp

theorem State.setResultFlag_frame (s : State) (x : Nibble) (b f : Byte) :
    SameOutside [.regs] s (s.setResultFlag x b f) := by
  constructor <;> simp

theorem State.store_frame (s : State) (a : Nat) (bs : List Byte) : SameOutside [.memory] s (s.store a bs) := by
  constructor <;> simp

theorem State.setIndex_frame (s : State) (a : Addr) : SameOutside [.index] s (s.setIndex a) := by
  constructor <;> simp

theorem State.jump_frame (s : State) (a : Word) : SameOutside [.pc] s (s.jump a) := by
  constructor <;> simp

theorem State.draw_frame (s : State) (d : Vector (BitVec 64) 32) : SameOutside [.display, .drawFlag] s (s.draw d) := by
  constructor <;> simp

theorem State.push_frame (s : State) (a : Word) (h : s.sp.val < 16) : SameOutside [.stack] s (s.push a h) := by
  constructor <;> simp

theorem State.pop_frame (s : State) (h : 0 < s.sp.val) : SameOutside [.pc, .stack] s (s.pop h) := by
  constructor <;> simp

theorem State.raiseFault_frame (s : State) (c : Fault) (op : Word) : SameOutside [.fault] s (s.raiseFault c op) := by
  constructor <;> simp

theorem State.setHires_frame (s : State) (b : Bool) : SameOutside [.hires] s (s.setHires b) := by
  constructor <;> simp

theorem State.awaitKey_frame (s : State) (x : Nibble) : SameOutside [.keyWait] s (s.awaitKey x) := by
  constructor <;> simp

theorem State.setDt_frame (s : State) (b : Byte) : SameOutside [.dt] s (s.setDt b) := by
  constructor <;> simp

theorem State.setSt_frame (s : State) (b : Byte) : SameOutside [.st] s (s.setSt b) := by
  constructor <;> simp

theorem State.countDraw_frame (s : State) : SameOutside [.draws] s s.countDraw := by
  constructor <;> simp

/-! ### Frames of updates made one after another -/

/-- An update of `qs` after one of `ps` leaves everything outside both. -/
theorem SameOutside.comp (h : SameOutside ps s t) (k : SameOutside qs t u) : SameOutside (ps ++ qs) s u :=
  (h.mono fun _ => List.mem_append_left qs).trans (k.mono fun _ => List.mem_append_right ps)

/-- A jump after an update of `ps`. -/
theorem SameOutside.jump (h : SameOutside ps s t) (a : Word) : SameOutside (.pc :: ps) s (t.jump a) :=
  (h.comp (t.jump_frame a)).mono fun p hp => by simpa [or_comm] using hp

/-- The fetch's advance after an update of `ps`. -/
theorem SameOutside.advance (h : SameOutside ps s t) : SameOutside (.pc :: ps) s t.advance := h.jump (t.pc + 2)

theorem State.advance_frame (s : State) : SameOutside [.pc] s s.advance := s.jump_frame _

theorem State.advanceSkip_frame (s : State) (c : Bool) : SameOutside [.pc] s (s.advanceSkip c) := by
  rw [State.advanceSkip_eq]
  exact s.jump_frame _

theorem keyWaitScan_frame (s : State) : SameOutside [.regs, .keyWait] s (keyWaitScan s) := by
  cases hk : firstKey s with
  | none =>
    rw [keyWaitScan_of_none s hk]
    exact .rfl' s
  | some k =>
    rw [keyWaitScan_of_some s k hk]
    constructor <;> simp [State.byte]

/-! ### What an instruction can do -/

/-- An instruction's two ways to answer: it writes PC and the pieces its rule lists (R86), or it takes a fault (R203). -/
def CompletesOrFaults (i : Instr) (s t : State) : Prop :=
  SameOutside (.pc :: documentedParts i) s t ∨ ∃ c, t = s.raiseFault c (encode i)

/-- A test that guards an instruction: it completes when the test holds, and takes a fault when it fails. -/
theorem Answers.guarded {i : Instr} {c : Prop} [Decidable c] {f : Fault}
    (h : SameOutside (.pc :: documentedParts i) s t) :
    Answers (if c then .next t else .next (s.raiseFault f (encode i))) (CompletesOrFaults i s) :=
  .ite (fun _ => .next (.inl h)) (fun _ => .next (.inr ⟨f, rfl⟩))

/-- Every instruction answers a next state, in which it has completed within its documented parts or taken a fault. -/
theorem exec_completesOrFaults (i : Instr) (s : State) : Answers (exec i s) (CompletesOrFaults i s) := by
  cases i with
  | scd n | cls => exact .next (.inl (s.draw_frame _).advance)
  | low | high => exact .next (.inl (s.setHires_frame _).advance)
  | ret => exact .dite (fun h => .next (.inl (s.pop_frame h))) (fun _ => .next (.inr ⟨_, rfl⟩))
  | call nnn => exact .dite (fun h => .next (.inl ((s.push_frame _ h).jump _))) (fun _ => .next (.inr ⟨_, rfl⟩))
  | jp nnn | jpV0 nnn => exact .next (.inl (s.jump_frame _))
  | seImm x nn | sneImm x nn | seReg x y | sneReg x y => exact .next (.inl (s.advanceSkip_frame _))
  | ldImm x nn | addImm x nn | ldReg x y | ldVxDt x => exact .next (.inl (s.setReg_frame x _).advance)
  | orReg x y | andReg x y | xorReg x y | addReg x y | subReg x y | shr x y | subn x y | shl x y =>
    exact .next (.inl (s.setResultFlag_frame x _ _).advance)
  | rnd x nn => exact .next (.inl ((s.setReg_frame x _).comp (State.countDraw_frame _)).advance)
  | ldI nnn | addI x | ldHf x => exact .next (.inl (s.setIndex_frame _).advance)
  | ldF x => exact .guarded (s.setIndex_frame _).advance
  | drw x y n => exact .guarded ((s.setReg_frame _ _).comp (State.draw_frame _ _)).advance
  | skp x | sknp x => exact .guarded (s.advanceSkip_frame _)
  | ldVxK x => exact .next (.inl (s.awaitKey_frame x).advance)
  | ldDtVx x => exact .next (.inl (s.setDt_frame _).advance)
  | ldStVx x => exact .next (.inl (s.setSt_frame _).advance)
  | ldB x => exact .guarded (s.store_frame _ _).advance
  | ldMemVx x => exact .guarded ((s.store_frame _ _).comp (State.setIndex_frame _ _)).advance
  | ldVxMem x => exact .guarded ((s.setRegs_frame _).comp (State.setIndex_frame _ _)).advance
  | ldRVx x | ldVxR x => exact .next (.inl s.advance_frame)

end Sys2Proof.Machine

/-! ## O57: the invariant -/

namespace Sys2Proof.Machine

variable {s t : State}

/-! ### What each operation needs to keep the invariant -/

/-- The invariant speaks of memory, the font, the stack and PC only. -/
theorem State.Inv.of_same (h : s.Inv) (hm : t.mem = s.mem) (hf : t.font = s.font) (hk : t.stack = s.stack)
    (hpc : t.pc.toNat ≤ 0x10FE) : t.Inv where
  mem_wf := by rw [hm, hf]; exact h.mem_wf
  pc_le := hpc
  stack_le := by rw [hk]; exact h.stack_le

theorem State.Inv.jump (h : s.Inv) {a : Word} (ha : a.toNat ≤ 0x10FE) : (s.jump a).Inv := h.of_same rfl rfl rfl ha

theorem State.Inv.raiseFault (h : s.Inv) (c : Fault) (op : Word) : (s.raiseFault c op).Inv :=
  h.of_same rfl rfl rfl h.pc_le

theorem State.Inv.store (h : s.Inv) (a : Nat) (bs : List Byte) : (s.store a bs).Inv where
  mem_wf := s.store_wf a bs h.mem_wf
  pc_le := h.pc_le
  stack_le := h.stack_le

/-- A push keeps the invariant when the return address is at most 0x1000. -/
theorem State.Inv.push (h : s.Inv) {a : Word} (hsp : s.sp.val < 16) (ha : a.toNat ≤ 0x1000) : (s.push a hsp).Inv where
  mem_wf := h.mem_wf
  pc_le := h.pc_le
  stack_le k hk := by
    rw [State.push_stack, Vector.getElem_set]
    split
    · exact ha
    · exact h.stack_le k hk

/-- A pop takes PC from the stack, whose entries are at most 0x1000. -/
theorem State.Inv.pop (h : s.Inv) (hsp : 0 < s.sp.val) : (s.pop hsp).Inv := by
  have hk : s.sp.val - 1 < 16 := by omega
  refine h.of_same rfl rfl rfl ?_
  rw [State.pop_pc s hsp hk]
  exact (h.stack_le _ hk).trans (by decide)

/-- An advance of at most 4 from an address a fetch can read. -/
theorem advance_toNat_le {a d : Word} (ha : a.toNat ≤ 0xFFE) (hd : d.toNat ≤ 4) : (a + d).toNat ≤ 0xFFE + d.toNat := by
  rw [BitVec.toNat_add]
  omega

theorem State.Inv.advance (h : s.Inv) (hpc : s.pc.toNat ≤ 0xFFE) : s.advance.Inv :=
  h.jump ((advance_toNat_le hpc (by decide)).trans (by decide))

theorem State.Inv.advanceSkip (h : s.Inv) (hpc : s.pc.toNat ≤ 0xFFE) (c : Bool) : (s.advanceSkip c).Inv := by
  rw [State.advanceSkip_eq]
  cases c <;> exact h.jump ((advance_toNat_le hpc (by decide)).trans (by decide))

/-- An update `t` of `s` that writes none of the four pieces, then the fetch's advance. -/
theorem State.Inv.advance_of_same (h : s.Inv) (hpc : s.pc.toNat ≤ 0xFFE) (hm : t.mem = s.mem) (hf : t.font = s.font)
    (hk : t.stack = s.stack) (hp : t.pc = s.pc) : t.advance.Inv :=
  (h.of_same hm hf hk (hp ▸ h.pc_le)).advance (hp ▸ hpc)

/-- A 12-bit address as a target of `1NNN` and `2NNN`. -/
theorem jpTarget_le (a : Addr) : (a.setWidth 16 : Word).toNat ≤ 0xFFF := by
  rw [BitVec.toNat_setWidth]
  omega

/-- The target of `BNNN` is at most 0xFFF + 0xFF, the highest PC there is (R104, D4). -/
theorem State.jumpTarget_le (s : State) (nnn : Addr) : (s.jumpTarget nnn).toNat ≤ 0x10FE := by
  have hb := (s.jumpOffset nnn).isLt
  have ha := nnn.isLt
  simp only [State.jumpTarget, BitVec.toNat_add, BitVec.toNat_setWidth]
  omega

/-! ### Instructions and cycles -/

/-- A fault keeps the invariant, so a guarded instruction keeps it when it keeps it on completing. -/
theorem Answers.inv_guarded {c : Prop} [Decidable c] {f : Fault} {op : Word} (hs : s.Inv) (h : t.Inv) :
    Answers (if c then .next t else .next (s.raiseFault f op)) State.Inv :=
  .ite (fun _ => .next h) (fun _ => .next (hs.raiseFault f op))

/-- Every instruction that a fetch from PC ≤ 0xFFE gives keeps the invariant. -/
theorem exec_keeps_inv (i : Instr) (hs : s.Inv) (hpc : s.pc.toNat ≤ 0xFFE) : Answers (exec i s) State.Inv := by
  cases i with
  | scd | cls | low | high | ldImm | addImm | ldReg | orReg | andReg | xorReg | addReg | subReg | shr | subn | shl | ldI
  | rnd | ldVxDt | ldVxK | ldDtVx | ldStVx | addI | ldHf =>
    refine .next (hs.advance_of_same hpc ?_ ?_ ?_ ?_) <;> simp
  | ldF | drw | ldVxMem => refine .inv_guarded hs (hs.advance_of_same hpc ?_ ?_ ?_ ?_) <;> simp
  | ldRVx | ldVxR => exact .next (hs.advance hpc)
  | seImm | sneImm | seReg | sneReg => exact .next (hs.advanceSkip hpc _)
  | skp | sknp => exact .inv_guarded hs (hs.advanceSkip hpc _)
  | ret => exact .dite (fun h => .next (hs.pop h)) (fun _ => .next (hs.raiseFault _ _))
  | jp nnn => exact .next (hs.jump ((jpTarget_le nnn).trans (by decide)))
  | jpV0 nnn => exact .next (hs.jump (s.jumpTarget_le nnn))
  | call nnn =>
    exact .dite
      (fun h => .next ((hs.push h (advance_toNat_le hpc (by decide))).jump ((jpTarget_le nnn).trans (by decide))))
      (fun _ => .next (hs.raiseFault _ _))
  | ldB => exact .inv_guarded hs ((hs.store _ _).advance hpc)
  | ldMemVx x =>
    have hstore := hs.store (s.effAddr 0) (s.regsUpTo x)
    refine .inv_guarded hs (hstore.advance_of_same hpc ?_ ?_ ?_ ?_) <;> simp

theorem keyWaitScan_keeps_inv (hs : s.Inv) : (keyWaitScan s).Inv := by
  cases hk : firstKey s with
  | none => rwa [keyWaitScan_of_none s hk]
  | some k =>
    rw [keyWaitScan_of_some s k hk]
    exact hs.of_same rfl rfl rfl hs.pc_le

/-- A word was fetched, so PC is at most 0xFFE (R44). -/
theorem pc_le_of_fetch {w : Word} (h : fetch s = some w) : s.pc.toNat ≤ 0xFFE := by
  by_contra hc
  simp [(fetch_eq_none_iff s).mpr (Nat.lt_of_not_le hc)] at h

/-- Settles O57: a cycle that executes starts from PC ≤ 0xFFE, where no advance and no target leaves the bound. -/
theorem stepKeepsTheInvariant : Obligations.StepKeepsTheInvariant := by
  intro s hs
  rcases step_cases s with ⟨-, hstep, -⟩ | ⟨-, -, hstep, -⟩ | ⟨-, -, -, hstep, -⟩ | ⟨-, -, hstep, -⟩ |
    ⟨-, w, v, hw, -, hstep, -⟩ | ⟨-, w, i, hw, -, hstep, -⟩
  · exact ⟨s, hstep, hs⟩
  · exact ⟨s, hstep, hs⟩
  · exact ⟨_, hstep, keyWaitScan_keeps_inv hs⟩
  · exact ⟨_, hstep, hs.raiseFault _ _⟩
  · exact ⟨_, hstep, hs.advance (pc_le_of_fetch hw)⟩
  · rw [hstep]
    exact exec_keeps_inv i hs (pc_le_of_fetch hw)

end Sys2Proof.Machine

/-! ## O60: what is inert -/

namespace Sys2Proof.Machine

/-- `s` with other values of the pieces no rule reads: `hires`, `draw_flag` and `ST`. -/
def State.withInert (s : State) (h d : Bool) (b : Byte) : State := { s with hires := h, drawFlag := d, st := b }

/-- Two answers are next states that differ at most in the inert pieces. -/
def SameButInert (r r' : Result) : Prop :=
  ∃ (t : State) (h d : Bool) (b : Byte), r = .next t ∧ r' = .next (t.withInert h d b)

theorem SameButInert.next {t : State} (h d : Bool) (b : Byte) : SameButInert (.next t) (.next (t.withInert h d b)) :=
  ⟨t, h, d, b, rfl, rfl⟩

/-- A test that reads no inert piece chooses the same branch for both. -/
theorem SameButInert.ite {c : Prop} [Decidable c] {a a' b b' : Result} (h : SameButInert a a') (k : SameButInert b b') :
    SameButInert (if c then a else b) (if c then a' else b') := by
  split
  · exact h
  · exact k

theorem SameButInert.dite {c : Prop} [Decidable c] {a a' : c → Result} {b b' : ¬ c → Result}
    (h : ∀ hc, SameButInert (a hc) (a' hc)) (k : ∀ hc, SameButInert (b hc) (b' hc)) :
    SameButInert (if hc : c then a hc else b hc) (if hc : c then a' hc else b' hc) := by
  split
  · exact h _
  · exact k _

theorem SameButInert.advanceSkip {s : State} {h d : Bool} {b : Byte} (c : Bool) :
    SameButInert (.next (s.advanceSkip c)) (.next ((s.withInert h d b).advanceSkip c)) := by
  cases c <;> exact .next h d b

/-- An instruction carries the inert pieces along, or writes them from what is not inert; it never reads them. -/
theorem exec_withInert (i : Instr) (s : State) (h d : Bool) (b : Byte) :
    SameButInert (exec i s) (exec i (s.withInert h d b)) := by
  cases i with
  | scd | cls => exact .next h true b
  | low => exact .next false d b
  | high => exact .next true d b
  | ldStVx x => exact .next h d (s.reg x)
  | drw => exact .ite (.next h true b) (.next h d b)
  | ldF | ldB | ldMemVx | ldVxMem => exact .ite (.next h d b) (.next h d b)
  | skp | sknp => exact .ite (.advanceSkip _) (.next h d b)
  | ret | call => exact .dite (fun _ => .next h d b) (fun _ => .next h d b)
  | seImm | sneImm | seReg | sneReg => exact .advanceSkip _
  | jp | jpV0 | ldImm | addImm | ldReg | orReg | andReg | xorReg | addReg | subReg | shr | subn | shl
  | ldI | rnd | ldVxDt | ldVxK | ldDtVx | addI | ldHf | ldRVx | ldVxR => exact .next h d b

/-! ### A cycle, by its guard -/

variable {s : State}

theorem running_iff : s.running = true ↔ s.paused = false ∧ s.faulted = false ∧ s.waitingForKey = false := by
  simp [State.running, and_assoc]

theorem step_of_paused (hp : s.paused = true) : step s = .next s ∧ cycleOutcome s = .paused := by
  simp [step, cycleOutcome, hp]

theorem step_of_faulted (hp : s.paused = false) (hf : s.faulted = true) :
    step s = .next s ∧ cycleOutcome s = .faulted := by
  simp [step, cycleOutcome, hp, hf]

theorem step_of_waiting (hp : s.paused = false) (hf : s.faulted = false) (hw : s.waitingForKey = true) :
    step s = .next (keyWaitScan s) ∧
      cycleOutcome s = if (firstKey s).isSome then .keyCaptured else .waiting := by
  cases hk : firstKey s <;> simp [step, cycleOutcome, hp, hf, hw, hk]

theorem step_of_fetch_none (hr : s.running = true) (hx : fetch s = none) :
    step s = .next (fetchFault s) ∧ cycleOutcome s = .newFault .fetchOutOfRange := by
  obtain ⟨hp, hf, hw⟩ := running_iff.mp hr
  simp [step, cycleOutcome, hp, hf, hw, hx]

theorem step_of_unknown {w v : Word} (hr : s.running = true) (hx : fetch s = some w) (hd : decodeWord w = .unknown v) :
    step s = .next (execUnknown s) ∧ cycleOutcome s = .unknown v := by
  obtain ⟨hp, hf, hw⟩ := running_iff.mp hr
  simp [step, cycleOutcome, hp, hf, hw, hx, hd]

theorem step_of_instr {w : Word} {i : Instr} (hr : s.running = true) (hx : fetch s = some w)
    (hd : decodeWord w = .instr i) : step s = exec i s ∧ cycleOutcome s = executeOutcome w (exec i s) := by
  obtain ⟨hp, hf, hw⟩ := running_iff.mp hr
  simp [step, cycleOutcome, hp, hf, hw, hx, hd]

/-! ### A cycle reads no inert piece -/

theorem keyWaitScan_withInert (s : State) (h d : Bool) (b : Byte) :
    keyWaitScan (s.withInert h d b) = (keyWaitScan s).withInert h d b := by
  have hfirst : firstKey (s.withInert h d b) = firstKey s := rfl
  cases hk : firstKey s with
  | none => rw [keyWaitScan_of_none s hk, keyWaitScan_of_none _ (hfirst.trans hk)]
  | some k =>
    rw [keyWaitScan_of_some s k hk, keyWaitScan_of_some _ k (hfirst.trans hk)]
    rfl

/-- The outcome of an executed instruction looks at the fault record alone. -/
theorem SameButInert.executeOutcome_eq {r r' : Result} (h : SameButInert r r') (w : Word) :
    executeOutcome w r' = executeOutcome w r := by
  obtain ⟨t, h', d', b', rfl, rfl⟩ := h
  rfl

/-- Two cycles with next states that differ only in inert pieces, and with one outcome. -/
theorem SameButInert.of_step {s s' t : State} {h d : Bool} {b : Byte} {o : CycleOutcome}
    (hs : step s = .next t ∧ cycleOutcome s = o) (hs' : step s' = .next (t.withInert h d b) ∧ cycleOutcome s' = o) :
    SameButInert (step s) (step s') ∧ cycleOutcome s' = cycleOutcome s :=
  ⟨⟨t, h, d, b, hs.1, hs'.1⟩, hs'.2.trans hs.2.symm⟩

/-- The guards, the fetch and the key search are the same with other inert pieces, so both cycles go the same way. -/
theorem step_withInert (s : State) (h d : Bool) (b : Byte) :
    SameButInert (step s) (step (s.withInert h d b)) ∧ cycleOutcome (s.withInert h d b) = cycleOutcome s := by
  rcases step_cases s with ⟨hp, -, -⟩ | ⟨hp, hf, -, -⟩ | ⟨hp, hf, hw, -, -⟩ | ⟨hr, hx, -, -⟩ |
    ⟨hr, w, v, hx, hd, -, -⟩ | ⟨hr, w, i, hx, hd, hs, ho⟩
  · exact SameButInert.of_step (step_of_paused hp) (step_of_paused hp)
  · exact SameButInert.of_step (step_of_faulted hp hf) (step_of_faulted hp hf)
  · have hs' := step_of_waiting (s := s.withInert h d b) hp hf hw
    rw [keyWaitScan_withInert] at hs'
    exact SameButInert.of_step (step_of_waiting hp hf hw) hs'
  · exact SameButInert.of_step (step_of_fetch_none hr hx) (step_of_fetch_none hr hx)
  · exact SameButInert.of_step (step_of_unknown hr hx hd) (step_of_unknown hr hx hd)
  · obtain ⟨hs', ho'⟩ := step_of_instr (s := s.withInert h d b) hr hx hd
    have hexec := exec_withInert i s h d b
    rw [hs, hs', ho, ho']
    exact ⟨hexec, hexec.executeOutcome_eq w⟩

/-- Settles O60: `withInert` is the update the statement makes, and no part of a cycle reads what it writes. -/
theorem hiresSoundTimerAndDrawFlagAreInert : Obligations.HiresSoundTimerAndDrawFlagAreInert := by
  intro s h d b
  obtain ⟨⟨t, h', d', b', hs, hs'⟩, ho⟩ := step_withInert s h d b
  exact ⟨t, h', d', b', hs, hs', ho⟩

end Sys2Proof.Machine

/-! ## O43: the registers -/

namespace Sys2Proof.Machine

variable {i : Instr} {s t : State}

theorem State.reg_setReg_of_ne (s : State) {x r : Nibble} (b : Byte) (hx : r ≠ x) : (s.setReg x b).reg r = s.reg r := by
  rw [State.reg_setReg, if_neg hx]

theorem State.reg_setResultFlag_of_ne (s : State) {x r : Nibble} (b f : Byte) (hx : r ≠ x) (hf : r ≠ 15) :
    (s.setResultFlag x b f).reg r = s.reg r := by
  rw [State.reg_setResultFlag, if_neg hf, if_neg hx]

/-- An instruction whose rule does not list the registers leaves every register, whether it completes or faults. -/
theorem CompletesOrFaults.reg_eq (h : CompletesOrFaults i s t) (hi : .regs ∉ documentedParts i) (r : Nibble) :
    t.reg r = s.reg r := by
  obtain hframe | ⟨c, rfl⟩ := h
  · exact hframe.regs (by simp [hi]) r
  · exact State.raiseFault_reg s c _ r

/-- Every register outside an instruction's list is left by it. -/
theorem exec_reg_eq (i : Instr) (s : State) (r : Nibble) (hr : ¬ mayWriteReg i r) :
    Answers (exec i s) fun t => t.reg r = s.reg r := by
  cases i with
  | ldImm | addImm | ldReg | rnd | ldVxDt => exact .next (s.reg_setReg_of_ne _ hr)
  | orReg | andReg | xorReg | addReg | subReg | shr | subn | shl =>
    obtain ⟨hx, hf⟩ := not_or.mp hr
    exact .next (s.reg_setResultFlag_of_ne _ _ hx hf)
  | drw => exact .ite (fun _ => .next (s.reg_setReg_of_ne _ hr)) (fun _ => .next (s.raiseFault_reg _ _ r))
  | ldVxMem x =>
    have hx : ¬ r.toNat ≤ x.toNat := hr
    exact .ite (fun _ => .next (by simp [hx])) (fun _ => .next (s.raiseFault_reg _ _ r))
  | scd | cls | ret | low | high | jp | call | seImm | sneImm | seReg | sneReg | ldI | jpV0 | skp | sknp | ldVxK
  | ldDtVx | ldStVx | addI | ldF | ldHf | ldB | ldMemVx | ldRVx | ldVxR =>
    exact (exec_completesOrFaults _ s).mono fun t ht => ht.reg_eq (by simp [documentedParts]) r

/-- Settles O43: the instructions that list registers write only the listed ones, the others none (R12, R86). -/
theorem registersWrittenOnlyAsListed : Obligations.RegistersWrittenOnlyAsListed :=
  fun i s _ r ht hr => (exec_reg_eq i s r hr).of_eq_next ht

end Sys2Proof.Machine

/-! ## O45: the host's inputs and the parameters -/

namespace Sys2Proof.Machine

variable {ps : List Part} {s t : State}

/-- The pieces that only the host writes, or nobody (R18, R23, R24, R25). -/
def hostParts : List Part := [.keys, .quirks, .font, .paused]

theorem SameOutside.keeps_hostParts (h : SameOutside ps s t) (hps : hostParts.Disjoint ps) :
    t.keys = s.keys ∧ t.quirks = s.quirks ∧ t.font = s.font ∧ t.paused = s.paused :=
  ⟨h.keys (hps (by decide)), h.quirks (hps (by decide)), h.font (hps (by decide)), h.paused (hps (by decide))⟩

/-- No instruction's rule lists a piece of the host's. -/
theorem hostParts_disjoint_documentedParts (i : Instr) : hostParts.Disjoint (.pc :: documentedParts i) := by
  cases i <;> simp [hostParts, documentedParts]

/-- Every cycle answers a next state, and what it writes lies outside the host's pieces. -/
theorem step_frame (s : State) : Answers (step s) fun t => ∃ ps, hostParts.Disjoint ps ∧ SameOutside ps s t := by
  rcases step_cases s with ⟨-, hstep, -⟩ | ⟨-, -, hstep, -⟩ | ⟨-, -, -, hstep, -⟩ | ⟨-, -, hstep, -⟩ |
    ⟨-, w, v, -, -, hstep, -⟩ | ⟨-, w, i, -, -, hstep, -⟩ <;> rw [hstep]
  · exact .next ⟨[], by simp, .rfl' s⟩
  · exact .next ⟨[], by simp, .rfl' s⟩
  · exact .next ⟨_, by simp [hostParts], keyWaitScan_frame s⟩
  · exact .next ⟨_, by simp [hostParts], s.raiseFault_frame _ _⟩
  · exact .next ⟨_, by simp [hostParts], s.advance_frame⟩
  · refine (exec_completesOrFaults i s).mono fun t ht => ?_
    obtain hframe | ⟨c, rfl⟩ := ht
    · exact ⟨_, hostParts_disjoint_documentedParts i, hframe⟩
    · exact ⟨_, by simp [hostParts], s.raiseFault_frame c _⟩

/-- Settles O45: a cycle's frame leaves out the keys, the parameters and `paused`. -/
theorem cycleNeverWritesHostInputs : Obligations.CycleNeverWritesHostInputs := by
  intro s t ht
  obtain ⟨ps, hps, hframe⟩ := (step_frame s).of_eq_next ht
  exact hframe.keeps_hostParts hps

end Sys2Proof.Machine

/-! ## O2: the host's reset -/

namespace Sys2Proof.Machine

/-- Two resets differ at most in what they take as arguments, and in the memory contents the font gives. -/
theorem State.resetWith_frame (f g : Font) (q q' : Quirks) (p p' : Bool) (k k' : Nat) :
    SameOutside [.memory, .quirks, .font, .paused, .drawFlag, .draws] (State.resetWith f q p k)
      (State.resetWith g q' p' k') := by
  constructor <;> simp [State.resetWith, State.reg]

/-- Settles O2: a host reset is `resetWith` of the core's own font, quirk flags and `paused` (R240). -/
theorem hostResetReplacesEverything : Obligations.HostResetReplacesEverything := fun _ =>
  ⟨State.resetWith_frame .., fun _ h => resetByte_of_lt h, fun _ h => resetByte_of_le h, rfl, rfl, rfl, rfl⟩

end Sys2Proof.Machine
end

section
/-! SUPPORT. Stores from I upward, the fetch after an instruction, and the statements of spec/20_memory.md. -/

/-! ## O4: the fetch -/

namespace Sys2Proof.Machine

/-- Settles O4: below 0xFFF the fetch answers a word, whose value is that of its two bytes, high byte first. -/
theorem fetchComposesBigEndian : Obligations.FetchComposesBigEndian := fun s hpc =>
  ⟨_, fetch_of_le s hpc, wordOfBytes_toNat _ _⟩

end Sys2Proof.Machine

/-! ## O34: a fetch after a store -/

namespace Sys2Proof.Machine

variable {s t : State} {bs : List Byte}

/-! ### Stores from I upward -/

theorem State.effAddr_zero (s : State) : s.effAddr 0 = s.index.toNat := rfl

/-- After a store from I upward that ends in memory, every byte of memory is the one `byteAfterStore` names. -/
theorem State.byte_store_effAddr (h : s.index.toNat + bs.length ≤ memSize) (a : Nat) :
    (s.store (s.effAddr 0) bs).byte a = byteAfterStore s bs a := by
  rw [State.effAddr_zero, State.byte_store s _ a bs h, byteAfterStore]
  split
  next hin => exact (List.getD_eq_getElem bs 0 (Nat.sub_lt_left_of_lt_add hin.1 hin.2)).symm
  next => rfl

/-- What `FX55` stores, register by register (R146). -/
theorem State.regsUpTo_eq_map (s : State) (x : Nibble) :
    s.regsUpTo x = (List.range (x.toNat + 1)).map fun r => s.reg (BitVec.ofNat 4 r) := by
  refine List.ext_getElem (by simp [State.regsUpTo_length]) fun r hr _ => ?_
  have hr16 : r < 16 := by
    have hx := x.isLt
    rw [State.regsUpTo_length] at hr
    omega
  simpa [Nat.mod_eq_of_lt hr16] using s.regsUpTo_getElem x (BitVec.ofNat 4 r) ((Nat.mod_le r 16).trans_lt hr)

/-! ### The two stores that complete -/

/-- `FX55` with its whole range in memory (R146). -/
theorem exec_ldMemVx_of_le {x : Nibble} (h : s.index.toNat + x.toNat ≤ 0xFFF) :
    exec (.ldMemVx x) s =
      .next ((s.store (s.effAddr 0) (s.regsUpTo x)).setIndex (s.indexAfterBlock x)).advance :=
  if_pos ((s.inRange_iff x.toNat).mpr h)

/-- `FX33` with its whole range in memory (R145). -/
theorem exec_ldB_of_le {x : Nibble} (h : s.index.toNat ≤ 0xFFD) :
    exec (.ldB x) s = .next (s.store (s.effAddr 0) (decimalDigits (s.reg x))).advance :=
  if_pos ((s.inRange_iff 2).mpr (by omega))

/-! ### The fetch after an advance -/

/-- The fetch of the next instruction in sequence reads the two bytes after the present one. -/
theorem fetch_advance_of_le (h : s.pc.toNat + 2 ≤ 0xFFE) :
    fetch s.advance = some (wordOfBytes (s.byte (s.pc.toNat + 2)) (s.byte (s.pc.toNat + 3))) := by
  have hpc : s.advance.pc.toNat = s.pc.toNat + 2 := by
    rw [State.advance_pc, BitVec.toNat_add]
    exact Nat.mod_eq_of_lt (show s.pc.toNat + 2 < 2 ^ 16 by omega)
  rw [fetch_of_le _ (hpc.trans_le h), hpc, State.advance_byte, State.advance_byte]

/-- When `t` is `s` with `bs` stored from I upward, the fetch after `t`'s advance reads memory as the store left it. -/
theorem fetch_advance_of_stored (hpc : s.pc.toNat + 2 ≤ 0xFFE) (ht : t.pc = s.pc)
    (hbyte : ∀ a, t.byte a = byteAfterStore s bs a) :
    fetch t.advance =
      some (wordOfBytes (byteAfterStore s bs (s.pc.toNat + 2)) (byteAfterStore s bs (s.pc.toNat + 3))) := by
  rw [← ht] at hpc
  rw [fetch_advance_of_le hpc, hbyte, hbyte, ht]

/-- Settles O34: both stores go through memory, which the next fetch reads; nothing stands between them (R50). -/
theorem nextFetchSeesStoredBytes : Obligations.NextFetchSeesStoredBytes := by
  intro x s hpc
  refine ⟨fun hblock => ⟨_, exec_ldMemVx_of_le hblock, ?_⟩, fun hdigits => ⟨_, exec_ldB_of_le hdigits, ?_⟩⟩
  · rw [← State.regsUpTo_eq_map]
    have hfits : s.index.toNat + (s.regsUpTo x).length ≤ memSize := by
      rw [State.regsUpTo_length, memSize]
      omega
    exact fetch_advance_of_stored hpc rfl (State.byte_store_effAddr hfits)
  · have hfits : s.index.toNat + (decimalDigits (s.reg x)).length ≤ memSize := Nat.add_le_add_right hdigits 3
    exact fetch_advance_of_stored hpc rfl (State.byte_store_effAddr hfits)

end Sys2Proof.Machine
end

section
/-! SUPPORT. The fields of a word, what the decoder reads back, and the statements of spec/30_encoding.md. -/

/-! ## O11: decode of encode -/

namespace Sys2Proof

/-! ### The fields of a word in each format (R62, R63) -/

@[simp] theorem fields_nnn (t : Nibble) (nnn : Addr) :
    fieldT (t ++ nnn : Word) = t ∧ fieldNNN (t ++ nnn : Word) = nnn :=
  ⟨BitVec.extractLsb'_append_eq_left, BitVec.extractLsb'_append_eq_right⟩

@[simp] theorem fields_xnn (t x : Nibble) (nn : Byte) :
    fieldT (t ++ x ++ nn : Word) = t ∧ fieldX (t ++ x ++ nn : Word) = x ∧ fieldNN (t ++ x ++ nn : Word) = nn := by
  refine ⟨?_, ?_, BitVec.extractLsb'_append_eq_right⟩
  · exact (BitVec.extractLsb'_append_eq_of_le (by decide)).trans BitVec.extractLsb'_append_eq_left
  · exact (BitVec.extractLsb'_append_eq_of_le (by decide)).trans BitVec.extractLsb'_append_eq_right

@[simp] theorem fields_xyn (t x y n : Nibble) :
    fieldT (t ++ x ++ y ++ n : Word) = t ∧ fieldX (t ++ x ++ y ++ n : Word) = x ∧
      fieldY (t ++ x ++ y ++ n : Word) = y ∧ fieldN (t ++ x ++ y ++ n : Word) = n := by
  have above (k : Nat) (hk : 4 ≤ k) :
      (t ++ x ++ y ++ n : Word).extractLsb' k 4 = (t ++ x ++ y).extractLsb' (k - 4) 4 :=
    BitVec.extractLsb'_append_eq_of_le hk
  obtain ⟨ht, hx, -⟩ := fields_xnn t x (y ++ n)
  rw [show (t ++ x ++ (y ++ n) : Word) = t ++ x ++ y ++ n from BitVec.append_assoc.symm] at ht hx
  exact ⟨ht, hx, (above 4 (by decide)).trans BitVec.extractLsb'_append_eq_right, BitVec.extractLsb'_append_eq_right⟩

/-- Decoding reads the word of its two bytes (R61). -/
@[simp] theorem decode_highByte_lowByte (w : Word) : decode (highByte w) (lowByte w) = decodeWord w :=
  congrArg decodeWord (BitVec.extractLsb'_append_extractLsb' (w := 8) (len := 8) (x := w))

/-- The decoder finds an encoding's constant fields in the branch of its row, and reads the operand fields there. -/
theorem decodeWord_encode (i : Instr) : decodeWord (encode i) = .instr i := by
  cases i with
  | scd n => revert n; decide
  | cls | ret | low | high => rfl
  | jp | call | ldI | jpV0 | seImm | sneImm | ldImm | addImm | rnd | seReg | sneReg | drw => simp [encode, decodeWord]
  | ldReg | orReg | andReg | xorReg | addReg | subReg | shr | subn | shl => simp [encode, decodeWord, decodeAlu]
  | skp | sknp => simp [encode, decodeWord, decodeKey]
  | ldVxDt | ldVxK | ldDtVx | ldStVx | addI | ldF | ldHf | ldB | ldMemVx | ldVxMem | ldRVx | ldVxR =>
    simp [encode, decodeWord, decodeMisc]

/-- Settles O11: the two bytes of an encoding make up its word again. -/
theorem decodeOfEncodeIsIdentity : Obligations.DecodeOfEncodeIsIdentity := fun i _ =>
  (decode_highByte_lowByte (encode i)).trans (decodeWord_encode i)

end Sys2Proof

/-! ## O12: encode of decode -/

namespace Sys2Proof

variable {w : Word} {t f : Nat}

/-! ### A word is its fields in each format (R62, R63), the constant ones as the decoder tests them -/

theorem ofNat_eq_of_toNat_eq {k : Nat} {v : BitVec k} (h : v.toNat = t) : BitVec.ofNat k t = v := by
  rw [← h, BitVec.ofNat_toNat, BitVec.setWidth_eq]

theorem nnn_of_fields (ht : (fieldT w).toNat = t) : (BitVec.ofNat 4 t ++ fieldNNN w : Word) = w := by
  rw [ofNat_eq_of_toNat_eq ht]
  exact BitVec.extractLsb'_append_extractLsb' (w := 4) (len := 12)

theorem xnn_of_fields (ht : (fieldT w).toNat = t) :
    (BitVec.ofNat 4 t ++ fieldX w ++ fieldNN w : Word) = w := by
  have htx : fieldT w ++ fieldX w = w.extractLsb' 8 8 := BitVec.extractLsb'_append_extractLsb'_eq_extractLsb' rfl
  rw [ofNat_eq_of_toNat_eq ht, htx]
  exact BitVec.extractLsb'_append_extractLsb' (w := 8) (len := 8)

theorem xff_of_fields (ht : (fieldT w).toNat = t) (hf : (fieldNN w).toNat = f) :
    (BitVec.ofNat 4 t ++ fieldX w ++ BitVec.ofNat 8 f : Word) = w := by
  rw [ofNat_eq_of_toNat_eq hf]
  exact xnn_of_fields ht

theorem xyn_of_fields (ht : (fieldT w).toNat = t) :
    (BitVec.ofNat 4 t ++ fieldX w ++ fieldY w ++ fieldN w : Word) = w := by
  have hyn : fieldY w ++ fieldN w = fieldNN w := BitVec.extractLsb'_append_extractLsb'_eq_extractLsb' rfl
  exact (BitVec.append_assoc (w₁ := 8)).trans (hyn ▸ xnn_of_fields ht)

theorem xyf_of_fields (ht : (fieldT w).toNat = t) (hf : (fieldN w).toNat = f) :
    (BitVec.ofNat 4 t ++ fieldX w ++ fieldY w ++ BitVec.ofNat 4 f : Word) = w := by
  rw [ofNat_eq_of_toNat_eq hf]
  exact xyn_of_fields ht

/-! ### The branches of the decoder -/

/-- The word a decoder's answer stands for: the instruction's encoding, or the unknown word itself. -/
def Decoded.word : Decoded → Word
  | .instr i => encode i
  | .unknown op => op

theorem word_decodeSystem (ht : (fieldT w).toNat = 0x0) : (decodeSystem w).word = w := by
  unfold decodeSystem
  split
  · rfl
  next hx =>
    have hx : fieldX w = 0 := not_not.mp hx
    split
    next hy =>
      have hw := xyn_of_fields ht
      rwa [hx, hy] at hw
    next =>
      have hw (f : Nat) := xff_of_fields (f := f) ht
      rw [hx] at hw
      split
      case h_5 => rfl
      all_goals exact hw _ ‹_›

theorem word_decodeAlu (ht : (fieldT w).toNat = 0x8) : (decodeAlu w).word = w := by
  unfold decodeAlu
  split
  case h_10 => rfl
  all_goals exact xyf_of_fields ht ‹_›

theorem word_decodeKey (ht : (fieldT w).toNat = 0xE) : (decodeKey w).word = w := by
  unfold decodeKey
  split
  case h_3 => rfl
  all_goals exact xff_of_fields ht ‹_›

theorem word_decodeMisc (ht : (fieldT w).toNat = 0xF) : (decodeMisc w).word = w := by
  unfold decodeMisc
  split
  case h_13 => rfl
  all_goals exact xff_of_fields ht ‹_›

/-- In every branch the fields that the decoder tests and the operands that it reads make up the whole word. -/
theorem word_decodeWord (w : Word) : (decodeWord w).word = w := by
  unfold decodeWord
  split
  case h_1 ht => exact word_decodeSystem ht
  case h_2 ht | h_3 ht | h_11 ht | h_12 ht => exact nnn_of_fields ht
  case h_4 ht | h_5 ht | h_7 ht | h_8 ht | h_13 ht => exact xnn_of_fields ht
  case h_6 ht | h_10 ht =>
    split
    next hn => exact xyf_of_fields ht (congrArg BitVec.toNat hn)
    next => rfl
  case h_9 ht => exact word_decodeAlu ht
  case h_14 ht => exact xyn_of_fields ht
  case h_15 ht => exact word_decodeKey ht
  case h_16 =>
    have hlt : (fieldT w).toNat < 16 := (fieldT w).isLt
    exact word_decodeMisc (by grind)

/-- Settles O12: the word of the decoder's answer is the word decoded. -/
theorem encodeOfDecodeIsIdentity : Obligations.EncodeOfDecodeIsIdentity := by
  intro w i hd
  have hw := word_decodeWord w
  rwa [hd] at hw

end Sys2Proof

/-! ## O13: one row at most -/

namespace Sys2Proof

variable {w : Word} {i : Instr} {r : OpcodeRow}

/-- Two words that a mask makes equal have the same value in every field that the mask covers. -/
theorem extractLsb'_eq_of_and_eq {m p : Word} (h : w &&& m = p) (k n : Nat)
    (hm : m.extractLsb' k n = BitVec.allOnes n) : w.extractLsb' k n = p.extractLsb' k n := by
  rw [← h, BitVec.extractLsb'_and, hm, BitVec.and_allOnes]

/-- The row of the instruction that the decoder answers, if it answers one. -/
def Decoded.row? : Decoded → Option OpcodeRow
  | .instr i => some (rowOf i)
  | .unknown _ => none

/-- The fields that a row's mask covers lead the decoder to that row's branch. -/
theorem row?_decodeWord_of_selects (h : (rowOf i).selects w = true) : (decodeWord w).row? = some (rowOf i) := by
  have field := extractLsb'_eq_of_and_eq (of_decide_eq_true h)
  cases i with
  | cls | ret | low | high =>
    obtain rfl := BitVec.extractLsb'_eq_self.symm.trans (field 0 16 rfl)
    rfl
  | scd =>
    simp only [rowOf] at field
    have ht : fieldT w = 0x0 := field 12 4 rfl
    have hx : fieldX w = 0x0 := field 8 4 rfl
    have hy : fieldY w = 0xC := field 4 4 rfl
    rw [decodeWord, ht, decodeSystem, hx, hy]
    rfl
  | jp | call | ldI | jpV0 | seImm | sneImm | ldImm | addImm | rnd | drw =>
    simp only [rowOf] at field
    have ht : fieldT w = _ := field 12 4 rfl
    rw [decodeWord, ht]
    rfl
  | seReg | sneReg | ldReg | orReg | andReg | xorReg | addReg | subReg | shr | subn | shl =>
    simp only [rowOf] at field
    have ht : fieldT w = _ := field 12 4 rfl
    have hf : fieldN w = _ := field 0 4 rfl
    rw [decodeWord, ht, decodeAlu, hf]
    rfl
  | skp | sknp | ldVxDt | ldVxK | ldDtVx | ldStVx | addI | ldF | ldHf | ldB | ldMemVx | ldVxMem | ldRVx | ldVxR =>
    simp only [rowOf] at field
    have ht : fieldT w = _ := field 12 4 rfl
    have hb : fieldNN w = _ := field 0 8 rfl
    rw [decodeWord, ht, decodeKey, decodeMisc, hb]
    rfl

theorem exists_rowOf_of_mem (h : r ∈ opcodeTable) : ∃ i, rowOf i = r := by
  simp only [opcodeTable, ← List.map_append] at h
  obtain ⟨i, -, hi⟩ := List.mem_map.mp h
  exact ⟨i, hi⟩

theorem row?_decodeWord (hr : r ∈ opcodeTable) (h : r.selects w = true) : (decodeWord w).row? = some r := by
  obtain ⟨i, rfl⟩ := exists_rowOf_of_mem hr
  exact row?_decodeWord_of_selects h

open Laws.TableRow in
/-- The family TableRow as one statement. -/
theorem tableRow : ∀ i : Instr, Laws.TableRow.Statement i
  | .scd n => scd n | .cls => cls | .ret => ret | .low => low | .high => high
  | .jp nnn => jp nnn | .call nnn => call nnn | .ldI nnn => ldI nnn | .jpV0 nnn => jpV0 nnn
  | .seImm x nn => seImm x nn | .sneImm x nn => sneImm x nn | .ldImm x nn => ldImm x nn
  | .addImm x nn => addImm x nn | .rnd x nn => rnd x nn
  | .seReg x y => seReg x y | .sneReg x y => sneReg x y | .ldReg x y => ldReg x y | .orReg x y => orReg x y
  | .andReg x y => andReg x y | .xorReg x y => xorReg x y | .addReg x y => addReg x y | .subReg x y => subReg x y
  | .shr x y => shr x y | .subn x y => subn x y | .shl x y => shl x y | .drw x y n => drw x y n
  | .skp x => skp x | .sknp x => sknp x | .ldVxDt x => ldVxDt x | .ldVxK x => ldVxK x
  | .ldDtVx x => ldDtVx x | .ldStVx x => ldStVx x | .addI x => addI x | .ldF x => ldF x | .ldHf x => ldHf x
  | .ldB x => ldB x | .ldMemVx x => ldMemVx x | .ldVxMem x => ldVxMem x | .ldRVx x => ldRVx x | .ldVxR x => ldVxR x

/-- A word that decodes to an instruction is its encoding, which selects its row. -/
theorem tableRow_of_decodeWord (hd : decodeWord w = .instr i) :
    rowOf i ∈ opcodeTable ∧ (rowOf i).selects w = true :=
  encodeOfDecodeIsIdentity w i hd ▸ tableRow i

/-- Settles O13: a row that selects a word is the row of what the word decodes to, so there is one at most. -/
theorem decodeSelectsTheOneRow : Obligations.DecodeSelectsTheOneRow := by
  refine ⟨fun w r₁ hr₁ r₂ hr₂ h₁ h₂ => ?_, fun _ _ => tableRow_of_decodeWord,
    fun w => ⟨fun hd r hr => ?_, fun hno => ?_⟩⟩
  · exact Option.some.inj ((row?_decodeWord hr₁ h₁).symm.trans (row?_decodeWord hr₂ h₂))
  · refine Bool.eq_false_iff.mpr fun h => ?_
    have hrow := row?_decodeWord hr h
    rw [hd] at hrow
    cases hrow
  · have hw := word_decodeWord w
    cases hd : decodeWord w with
    | instr i =>
      obtain ⟨hr, h⟩ := tableRow_of_decodeWord hd
      exact absurd h (Bool.eq_false_iff.mp (hno _ hr))
    | unknown v =>
      rw [hd] at hw
      exact congrArg Decoded.unknown hw

end Sys2Proof

/-! ## O9: sample words -/

namespace Sys2Proof

/-- Settles O9: twelve closed words, decoded by evaluation. -/
theorem sampleWordsDecode : Obligations.SampleWordsDecode := by
  unfold Obligations.SampleWordsDecode
  decide

end Sys2Proof
end

section
/-! SUPPORT. The cycle by its guard, runs of events, what an instruction may touch cell by cell, and the statements of
spec/40_cycle_fetch_decode.md. -/

/-! ## O58: runs keep the invariant -/

namespace Sys2Proof.Machine

variable {s t : State} {e : Event} {es : List Event} {p : State → Prop}

/-! ### Runs, event by event -/

theorem runEvents_cons_of_next (h : applyEvent e s = .next t) : runEvents (e :: es) s = runEvents es t := by
  rw [runEvents, h]

/-- What each event of a list keeps, a run of the list keeps: the induction that run statements share. -/
theorem runEvents_answers (h : ∀ e ∈ es, ∀ s, p s → Answers (applyEvent e s) p) (hs : p s) :
    Answers (runEvents es s) p := by
  induction es generalizing s with
  | nil => exact .next hs
  | cons e es ih =>
    rw [List.forall_mem_cons] at h
    obtain ⟨he, hes⟩ := h
    obtain ⟨t, hstep, ht⟩ := he s hs
    rw [runEvents_cons_of_next hstep]
    exact ih hes ht

/-! ### The host operations and the invariant -/

/-- Whatever the font, the quirk flags and `paused`, the reset values meet the invariant (R27). -/
theorem resetWith_inv (f : Font) (q : Quirks) (b : Bool) (k : Nat) : (State.resetWith f q b k).Inv where
  mem_wf := rfl
  pc_le := show (0x200 : Word).toNat ≤ 0x10FE by decide
  stack_le j hj := by simp [State.resetWith]

theorem State.Inv.setKey (h : s.Inv) (k : Nat) (b : Bool) : (s.setKey k b).Inv := h.of_same rfl rfl rfl h.pc_le

theorem keyDown_keeps_inv (hs : s.Inv) (k : Int) : (keyDown k s).Inv := by
  unfold keyDown
  split
  · exact hs.setKey _ _
  · exact hs

theorem keyUp_keeps_inv (hs : s.Inv) (k : Int) : (keyUp k s).Inv := by
  unfold keyUp
  split
  · exact hs.setKey _ _
  · exact hs

/-- A ROM that fits is stored over a reset state; one that does not leaves the state (R241, D21). -/
theorem loadRom_keeps_inv (hs : s.Inv) (bytes : List Byte) : (loadRom bytes s).2.Inv := by
  unfold loadRom
  split
  · exact (resetWith_inv ..).store _ _
  · exact hs

theorem applyHostOp_keeps_inv (hs : s.Inv) (op : HostOp) : (applyHostOp op s).Inv := by
  cases op with
  | updateTimers | ackDraw | setPaused => exact hs.of_same rfl rfl rfl hs.pc_le
  | keyDown k => exact keyDown_keeps_inv hs k
  | keyUp k => exact keyUp_keeps_inv hs k
  | reset => exact resetWith_inv ..
  | loadRom bytes => exact loadRom_keeps_inv hs bytes

theorem applyEvent_keeps_inv (e : Event) (hs : s.Inv) : Answers (applyEvent e s) State.Inv := by
  cases e with
  | cycle => exact stepKeepsTheInvariant s hs
  | host op => exact .next (applyHostOp_keeps_inv hs op)

/-- Settles O58: every event, a cycle (O57) or a host operation, keeps the invariant, so every run does. -/
theorem runsKeepTheInvariant : Obligations.RunsKeepTheInvariant := fun _ _ hs =>
  runEvents_answers (fun e _ _ hs => applyEvent_keeps_inv e hs) hs

end Sys2Proof.Machine

/-! ## O44: the cells an instruction may write -/

namespace Sys2Proof.Machine

variable {i : Instr} {s t : State} {bs : List Byte}

/-! ### The frame of an instruction, whichever way it answers -/

/-- Completing or faulting, an instruction leaves everything but the record, PC and the pieces its rule lists. -/
theorem CompletesOrFaults.sameOutside (h : CompletesOrFaults i s t) :
    SameOutside (.fault :: .pc :: documentedParts i) s t := by
  obtain hframe | ⟨c, rfl⟩ := h
  · exact hframe.mono fun p hp => List.mem_cons_of_mem _ hp
  · exact (s.raiseFault_frame c _).mono (by simp)

theorem CompletesOrFaults.completes_or_faulted (h : CompletesOrFaults i s t) :
    SameOutside (.pc :: documentedParts i) s t ∨ (t.faulted = true ∧ SameOutside [.fault] s t) := by
  obtain hframe | ⟨c, rfl⟩ := h
  · exact .inl hframe
  · exact .inr ⟨s.raiseFault_faulted c _, s.raiseFault_frame c _⟩

/-! ### Memory -/

/-- A store of k + 1 bytes from I upward, checked to lie in memory, leaves every byte outside I to I + k. -/
theorem State.byte_store_of_outside {k a : Nat} (hr : s.inRange k = true) (hlen : bs.length = k + 1)
    (ha : ¬ (s.effAddr 0 ≤ a ∧ a ≤ s.effAddr k)) : (s.store (s.effAddr 0) bs).byte a = s.byte a := by
  have hle := (s.inRange_iff k).mp hr
  rw [State.byte_store_effAddr (by rw [hlen, memSize]; omega), byteAfterStore, if_neg]
  simp only [State.effAddr] at ha
  omega

/-- Every byte outside an instruction's list is left by it. -/
theorem exec_byte_eq (i : Instr) (s : State) (a : Nat) (ha : ¬ mayStoreByte i s a) :
    Answers (exec i s) fun t => t.byte a = s.byte a := by
  cases i with
  | ldB =>
    exact .ite (fun hr => .next (State.byte_store_of_outside hr rfl ha)) (fun _ => .next (s.raiseFault_byte _ _ a))
  | ldMemVx x =>
    exact .ite (fun hr => .next (State.byte_store_of_outside hr (s.regsUpTo_length x) ha))
      (fun _ => .next (s.raiseFault_byte _ _ a))
  | scd | cls | ret | low | high | jp | call | seImm | sneImm | seReg | ldImm | addImm | ldReg | orReg | andReg | xorReg
  | addReg | subReg | shr | subn | shl | sneReg | ldI | jpV0 | rnd | drw | skp | sknp | ldVxDt | ldVxK | ldDtVx | ldStVx
  | addI | ldF | ldHf | ldVxMem | ldRVx | ldVxR =>
    exact (exec_completesOrFaults _ s).mono fun t ht => ht.sameOutside.memory (by simp [documentedParts]) a

/-! ### The stack -/

/-- Every stack entry outside an instruction's list is left by it; a return pops, and the popped entry stays (D26). -/
theorem exec_stack_getElem_eq (i : Instr) (s : State) (k : Nat) (h : k < 16) (hk : ¬ mayWriteEntry i s k) :
    Answers (exec i s) fun t => t.stack[k] = s.stack[k] := by
  cases i with
  | call nnn =>
    exact .dite (fun hsp => .next (Vector.getElem_set_ne hsp h (Ne.symm hk))) (fun _ => .next rfl)
  | ret => exact .dite (fun _ => .next rfl) (fun _ => .next rfl)
  | scd | cls | low | high | jp | seImm | sneImm | seReg | ldImm | addImm | ldReg | orReg | andReg | xorReg
  | addReg | subReg | shr | subn | shl | sneReg | ldI | jpV0 | rnd | drw | skp | sknp | ldVxDt | ldVxK | ldDtVx | ldStVx
  | addI | ldF | ldHf | ldB | ldMemVx | ldVxMem | ldRVx | ldVxR =>
    refine (exec_completesOrFaults _ s).mono fun t ht => ?_
    obtain ⟨-, hstack⟩ := ht.sameOutside.stack (by simp [documentedParts])
    simp only [hstack]

/-! ### The display -/

theorem State.pixel_of_display_eq (h : t.display = s.display) (row col : Nat) : t.pixel row col = s.pixel row col := by
  rw [State.pixel, State.pixel, h]

theorem State.pixel_of_lt (s : State) {row : Nat} (h : row < 32) (col : Nat) :
    s.pixel row col = s.display[row].getLsbD col := by
  simp [State.pixel, h]

/-- The bit that a draw XORs into the pixel (row, col): 0 outside the sprite's unclipped rows (R165). -/
def State.spriteBit (s : State) (x y n : Nibble) (row col : Nat) : Bool :=
  decide (s.originRow y ≤ row ∧ row < s.originRow y + s.visibleRows y n) &&
    (spriteRow (s.byte (s.index.toNat + (row - s.originRow y))) (s.originCol x)).getLsbD col

/-- A draw flips the pixels whose sprite bit is 1. -/
theorem State.spriteDrawn_getLsbD (s : State) (x y n : Nibble) {row : Nat} (h : row < 32) (col : Nat) :
    (s.spriteDrawn x y n).1[row].getLsbD col = (s.pixel row col ^^ s.spriteBit x y n row col) := by
  rw [State.spriteDrawn, drawRows_row, s.pixel_of_lt h, State.spriteBit]
  split
  next hin => simp [hin]
  next hout => simp [hout]

/-- The pixels with sprite bit 1 are those that the sprite covers: bit 7 − c of row r falls on column x0 + c (D24). -/
theorem State.spriteBit_iff (s : State) (x y n : Nibble) {row col : Nat} (hrow : row < 32) (hcol : col < 64) :
    s.spriteBit x y n row col = true ↔ SpriteCovers s x y n row col := by
  rw [State.spriteBit, Bool.and_eq_true, decide_eq_true_iff]
  simp only [spriteRow_getLsbD, Bool.and_eq_true, decide_eq_true_eq, State.originRow, State.originCol,
    State.visibleRows, SpriteCovers, spriteY0, spriteX0]
  constructor
  · rintro ⟨⟨hy, hrows⟩, ⟨⟨hx, -⟩, hx8⟩, hbit⟩
    exact ⟨row - (s.reg y).toNat % 32, col - (s.reg x).toNat % 64, by omega, by omega, by omega, hrow,
      by omega, hcol, hbit⟩
  · rintro ⟨r, c, hr, hc, rfl, -, rfl, -, hbit⟩
    refine ⟨⟨by omega, by omega⟩, ⟨⟨by omega, hcol⟩, by omega⟩, ?_⟩
    rwa [Nat.add_sub_cancel_left, Nat.add_sub_cancel_left]

/-- A draw leaves every pixel that the sprite does not cover. -/
theorem State.pixel_of_not_covered {x y n : Nibble} {row col : Nat} (hrow : row < 32) (hcol : col < 64)
    (hc : ¬ SpriteCovers s x y n row col) (ht : t.display = (s.spriteDrawn x y n).1) :
    t.pixel row col = s.pixel row col := by
  have hbit : s.spriteBit x y n row col = false := by
    rwa [← s.spriteBit_iff x y n hrow hcol, Bool.not_eq_true] at hc
  have hpixel : t.pixel row col = (s.spriteDrawn x y n).1[row].getLsbD col := by
    simp only [t.pixel_of_lt hrow, ht]
  rw [hpixel, s.spriteDrawn_getLsbD x y n hrow, hbit, Bool.xor_false]

/-- Every pixel outside an instruction's list is left by it. -/
theorem exec_pixel_eq (i : Instr) (s : State) {row col : Nat} (hrow : row < 32) (hcol : col < 64)
    (hp : ¬ mayWritePixel i s row col) : Answers (exec i s) fun t => t.pixel row col = s.pixel row col := by
  cases i with
  | scd | cls => exact absurd trivial hp
  | drw =>
    exact .ite (fun _ => .next (State.pixel_of_not_covered hrow hcol hp rfl))
      (fun _ => .next (s.raiseFault_pixel _ _ row col))
  | ret | low | high | jp | call | seImm | sneImm | seReg | ldImm | addImm | ldReg | orReg | andReg | xorReg
  | addReg | subReg | shr | subn | shl | sneReg | ldI | jpV0 | rnd | skp | sknp | ldVxDt | ldVxK | ldDtVx | ldStVx
  | addI | ldF | ldHf | ldB | ldMemVx | ldVxMem | ldRVx | ldVxR =>
    exact (exec_completesOrFaults _ s).mono fun t ht =>
      State.pixel_of_display_eq (ht.sameOutside.display (by simp [documentedParts])) row col

/-- Settles O44: part by part by the instruction's frame, and cell by cell in each piece that has cells (R86). -/
theorem execTouchesOnlyDocumentedState : Obligations.ExecTouchesOnlyDocumentedState := fun i s t ht =>
  ⟨((exec_completesOrFaults i s).of_eq_next ht).completes_or_faulted,
    fun a ha => (exec_byte_eq i s a ha).of_eq_next ht,
    fun r hr => registersWrittenOnlyAsListed i s t r ht hr,
    fun k h hk => (exec_stack_getElem_eq i s k h hk).of_eq_next ht,
    fun _ _ hrow hcol hp => (exec_pixel_eq i s hrow hcol hp).of_eq_next ht⟩

end Sys2Proof.Machine

/-! ## O6, O7, O8: the cycle by its guard -/

namespace Sys2Proof.Machine

variable {s : State}

/-- No field of an instruction can leave its encoding field, so there is nothing to refuse (R64). -/
theorem wf_eq_true (i : Instr) : i.wf = true := by
  cases i <;> rfl

/-- Settles O6: a running state goes past all three tests, and the cycle is then the instruction's meaning. -/
theorem stepRunsDecodedInstruction : Obligations.StepRunsDecodedInstruction := fun _ _ i hr hx hd =>
  ⟨wf_eq_true i, (step_of_instr hr hx hd).1⟩

/-- The key search succeeds exactly when some key is pressed. -/
theorem firstKey_isSome_iff (s : State) : (firstKey s).isSome = true ↔ ∃ k, k < 16 ∧ s.keyPressed k = true := by
  simp [← Option.ne_none_iff_isSome, firstKey_eq_none_iff]

/-- Settles O7: the three tests, each with those before it failed; the scan captures a key if one is down. -/
theorem cycleTestsPausedFaultedWaiting : Obligations.CycleTestsPausedFaultedWaiting := by
  intro s
  refine ⟨step_of_paused, step_of_faulted, fun hp hf hw => ?_⟩
  obtain ⟨hstep, hout⟩ := step_of_waiting hp hf hw
  rw [← firstKey_isSome_iff, hout]
  exact ⟨hstep, fun h => if_pos h, fun h => if_neg h⟩

/-- The word that an unknown answer reports is the word decoded. -/
theorem eq_of_decodeWord_unknown {w v : Word} (hd : decodeWord w = .unknown v) : v = w := by
  have hw := word_decodeWord w
  rwa [hd] at hw

/-- Settles O8: the cycle is the fetch's advance alone, and its outcome names the word fetched (R88). -/
theorem unknownOpcodeOnlyAdvances : Obligations.UnknownOpcodeOnlyAdvances := by
  intro s w v hr hx hd
  obtain ⟨hstep, hout⟩ := step_of_unknown hr hx hd
  rw [eq_of_decodeWord_unknown hd] at hout
  exact ⟨s.advance, hstep, s.advance_pc, s.advance_frame, hout⟩

end Sys2Proof.Machine
end

section
/-! SUPPORT. Jumps, calls, returns and skips: the statements of spec/41_control_flow.md. -/

/-! ## O14, O19: the jumps -/

namespace Sys2Proof.Machine

/-- A 12-bit address keeps its value as a 16-bit target. -/
theorem jpTarget_toNat (nnn : Addr) : (nnn.setWidth 16 : Word).toNat = nnn.toNat :=
  BitVec.toNat_setWidth_of_le (by decide)

theorem State.jump_pc_self (s : State) : s.jump s.pc = s := rfl

/-- Settles O14: a jump writes PC alone, so a jump to PC's own value writes nothing (R100). -/
theorem jumpLoadsTarget : Obligations.JumpLoadsTarget := by
  intro nnn s
  refine ⟨s.jump (nnn.setWidth 16), rfl, jpTarget_toNat nnn, s.jump_frame _, fun hself => ?_⟩
  have htarget : nnn.setWidth 16 = s.pc := BitVec.eq_of_toNat_eq ((jpTarget_toNat nnn).trans hself)
  rw [htarget, s.jump_pc_self]

/-- A 12-bit address and a byte add up in 16 bits without a carry out (R104, D4). -/
theorem State.jumpTarget_toNat (s : State) (nnn : Addr) :
    (s.jumpTarget nnn).toNat = nnn.toNat + (s.jumpOffset nnn).toNat := by
  have hb := (s.jumpOffset nnn).isLt
  have ha := nnn.isLt
  rw [State.jumpTarget, BitVec.toNat_add, jpTarget_toNat, BitVec.toNat_setWidth_of_le (by decide)]
  omega

/-- The top nibble of a 12-bit address, as the field that `BNNN` reads (R104). -/
theorem eq_extractLsb'_of_toNat_eq_div {x : Nibble} {nnn : Addr} (hx : x.toNat = nnn.toNat / 256) :
    x = nnn.extractLsb' 8 4 := by
  apply BitVec.eq_of_toNat_eq
  rw [BitVec.extractLsb'_toNat, Nat.shiftRight_eq_div_pow]
  omega

/-- Settles O19: the jump is to the whole sum, and the quirk flag chooses its second term. -/
theorem offsetJumpAddsSelectedRegister : Obligations.OffsetJumpAddsSelectedRegister := by
  intro nnn s x hx
  refine ⟨s.jump (s.jumpTarget nnn), rfl, s.jump_frame _, ?_⟩
  rw [State.jump_pc, s.jumpTarget_toNat, State.jumpOffset, ← eq_extractLsb'_of_toNat_eq_div hx, apply_ite BitVec.toNat]

end Sys2Proof.Machine

/-! ## O15, O16, O17: call and return -/

namespace Sys2Proof.Machine

variable {s : State}

/-- `2NNN` with room on the stack (R101). -/
theorem exec_call_of_lt (nnn : Addr) (h : s.sp.val < 16) :
    exec (.call nnn) s = .next ((s.push (s.pc + 2) h).jump (nnn.setWidth 16)) :=
  dif_pos h

/-- `00EE` with an entry on the stack (R103). -/
theorem exec_ret_of_pos (h : 0 < s.sp.val) : exec .ret s = .next (s.pop h) := dif_pos h

/-- Settles O15: the push writes the entry at the old SP, and the jump then writes PC (D26). -/
theorem callPushesReturnAddress : Obligations.CallPushesReturnAddress := fun nnn s hsp =>
  ⟨_, exec_call_of_lt nnn hsp, jpTarget_toNat nnn, rfl, (s.push_frame _ hsp).jump _, fun k hk => by
    rw [State.jump_stack, State.push_stack, Vector.getElem_set]
    simp only [eq_comm]⟩

/-- Settles O16: the pop reads the entry below the old SP and leaves it there (D26). -/
theorem returnPopsIntoPc : Obligations.ReturnPopsIntoPc := fun s hsp =>
  ⟨_, exec_ret_of_pos hsp, s.pop_sp_val hsp, s.pop_stack hsp, s.pop_pc hsp, s.pop_frame hsp⟩

/-- Settles O17: the entry that the return pops (O16) is the one that the call has pushed (O15), at the call's SP
(R101, R103, D26). -/
theorem returnUndoesCall : Obligations.ReturnUndoesCall := by
  intro nnn s hsp
  obtain ⟨t, hcall, -, htsp, htframe, htstack⟩ := callPushesReturnAddress nnn s hsp
  obtain ⟨u, hret, husp, hustack, hupc, huframe⟩ := returnPopsIntoPc t (by omega)
  have hback : t.sp.val - 1 = s.sp.val := by omega
  refine ⟨t, u, hcall, hret, ?_, Fin.ext (husp.trans hback), fun k hk hlt => ?_, htframe.trans huframe⟩
  · rw [hupc (by omega), htstack, if_pos hback]
  · simp only [hustack, htstack k hk, if_neg hlt.ne]

end Sys2Proof.Machine

/-! ## O20: the skips -/

namespace Sys2Proof.Machine

/-- A skip that is taken when `c` holds: PC passes over one more instruction then (R102). -/
theorem State.advanceSkip_answers (s : State) (c : Prop) [Decidable c] :
    Answers (.next (s.advanceSkip (decide c))) fun t => SameOutside [.pc] s t ∧ t.pc = s.pc + if c then 4 else 2 :=
  .next ⟨s.advanceSkip_frame _, by simp only [State.advanceSkip_pc, decide_eq_true_eq]⟩

/-- A skip that is taken when `c` fails. -/
theorem State.advanceSkip_not_answers (s : State) (c : Prop) [Decidable c] :
    Answers (.next (s.advanceSkip (decide ¬c))) fun t => SameOutside [.pc] s t ∧ t.pc = s.pc + if c then 2 else 4 := by
  simpa only [ite_not] using s.advanceSkip_answers ¬c

/-- Settles O20: two skips are taken when their operands are equal, two when they differ. -/
theorem skipsPassOverOneInstruction : Obligations.SkipsPassOverOneInstruction := fun x y nn s =>
  ⟨s.advanceSkip_answers (s.reg x = nn), s.advanceSkip_not_answers (s.reg x = nn),
    s.advanceSkip_answers (s.reg x = s.reg y), s.advanceSkip_not_answers (s.reg x = s.reg y)⟩

end Sys2Proof.Machine
end

section
/-! SUPPORT. Loads, arithmetic, shifts and the random byte: the statements of spec/42_load_alu.md. -/

/-! ## O21, O22, O26: the destination register alone -/

namespace Sys2Proof.Machine

variable {ps : List Part} {s t : State} {p : State → Prop}

/-- An update of `ps` that leaves PC, and then the fetch's advance (R84). -/
theorem AdvancesWith.next_advance (h : SameOutside ps s t) (hpc : t.pc = s.pc) (hp : p t.advance) :
    AdvancesWith ps s (.next t.advance) p :=
  ⟨t.advance, rfl, by rw [State.advance_pc, hpc], h.advance, hp⟩

/-- A write of one register, and then the fetch's advance. -/
theorem State.setReg_advancesWith (s : State) (x : Nibble) (b : Byte) :
    AdvancesWith [.regs] s (.next (s.setReg x b).advance) fun t => ∀ r, t.reg r = if r = x then b else s.reg r :=
  .next_advance (s.setReg_frame x b) rfl (s.reg_setReg x · b)

/-- Settles O21: both loads are one register write. -/
theorem loadsWriteTheDestination : Obligations.LoadsWriteTheDestination := fun x y nn s =>
  ⟨s.setReg_advancesWith x nn, s.setReg_advancesWith x (s.reg y)⟩

theorem State.reg_setReg_self (s : State) (x : Nibble) (b : Byte) : (s.setReg x b).reg x = b := by
  rw [State.reg_setReg, if_pos rfl]

/-- Settles O22: the sum of two bytes is taken modulo 256 and goes to `V[x]`; no second register is written (D17). -/
theorem addImmediateWrapsWithoutFlag : Obligations.AddImmediateWrapsWithoutFlag := by
  refine fun x nn s => .next_advance (s.setReg_frame x _) rfl ⟨?_, fun r hr => s.reg_setReg_of_ne _ hr⟩
  rw [State.advance_reg, State.reg_setReg_self, BitVec.toNat_add]

/-- Settles O26: the mask is on whatever byte the counter's draw is, and the counter advances (D16). -/
theorem randomByteIsMasked : Obligations.RandomByteIsMasked := by
  intro x nn s
  have hreg : (s.setReg x (Config.freeByte s.freeDraws &&& nn)).countDraw.advance.reg x =
      Config.freeByte s.freeDraws &&& nn := s.reg_setReg_self x _
  refine .next_advance ((s.setReg_frame x _).comp (State.countDraw_frame _)) rfl
    ⟨⟨_, rfl, hreg⟩, fun k hk => ?_, fun r hr => s.reg_setReg_of_ne _ hr, rfl⟩
  rw [hreg, BitVec.getLsbD_and, hk, Bool.and_false]

end Sys2Proof.Machine

/-! ## O23, O24, O25: a result and a flag -/

namespace Sys2Proof.Machine

variable {s : State}

/-! ### The flags as numbers (R12) -/

theorem flagByte_toNat (b : Bool) : (flagByte b).toNat = b.toNat := by
  cases b <;> rfl

theorem flagByte_decide_toNat (c : Prop) [Decidable c] : (flagByte (decide c)).toNat = if c then 1 else 0 := by
  rw [flagByte_toNat, Bool.toNat, Bool.cond_decide]

theorem shrFlag_toNat (a : Byte) : (shrFlag a).toNat = a.toNat % 2 := by
  rw [shrFlag, flagByte_toNat, BitVec.getLsbD, Nat.toNat_testBit, pow_zero, Nat.div_one]

theorem shlFlag_toNat (a : Byte) : (shlFlag a).toNat = a.toNat / 128 := by
  rw [shlFlag, flagByte_toNat, BitVec.getLsbD, Nat.toNat_testBit]
  omega

/-! ### The results as numbers -/

theorem byte_sub_toNat (a b : Byte) : (a - b).toNat = (a.toNat + 256 - b.toNat) % 256 := by
  rw [BitVec.toNat_sub]
  omega

/-- The operand that a shift reads (R128, R130, D8). -/
theorem State.shiftSource_toNat (s : State) (x y : Nibble) :
    (s.shiftSource x y).toNat = if s.quirks.shiftVx = true then (s.reg x).toNat else (s.reg y).toNat := by
  rw [State.shiftSource, apply_ite BitVec.toNat]

/-! ### One ALU instruction -/

/-- An instruction that writes a result and then VF, both computed from the state before it, as R133 orders them. -/
theorem aluWith_of_setResultFlag {i : Instr} {x : Nibble} {b f : Byte} {result flag : Nat}
    (h : exec i s = .next (s.setResultFlag x b f).advance) (hb : b.toNat = result) (hf : f.toNat = flag) :
    AluWith i x result flag s := by
  rw [AluWith, h]
  refine .next_advance (s.setResultFlag_frame x b f) rfl
    ⟨?_, fun hx => ?_, fun r hx hr => s.reg_setResultFlag_of_ne b f hx hr⟩
  · rw [State.advance_reg, State.reg_setResultFlag, if_pos rfl, hf]
  · rw [State.advance_reg, State.reg_setResultFlag, if_neg hx, if_pos rfl, hb]

/-- Settles O23: the bitwise result as a number, and VF 0 under every setting of the quirks. -/
theorem logicalOpsClearFlag : Obligations.LogicalOpsClearFlag := fun _ _ _ =>
  ⟨aluWith_of_setResultFlag rfl (BitVec.toNat_or _ _) rfl, aluWith_of_setResultFlag rfl (BitVec.toNat_and _ _) rfl,
    aluWith_of_setResultFlag rfl (BitVec.toNat_xor _ _) rfl⟩

/-- Settles O24: the flag is computed from the operands before the result is written, so VF may be one of them. -/
theorem addAndSubtractWithFlag : Obligations.AddAndSubtractWithFlag := by
  rintro x y s _ _ rfl rfl
  exact ⟨aluWith_of_setResultFlag rfl (BitVec.toNat_add _ _) (flagByte_decide_toNat _),
    aluWith_of_setResultFlag rfl (byte_sub_toNat _ _) (flagByte_decide_toNat _),
    aluWith_of_setResultFlag rfl (byte_sub_toNat _ _) (flagByte_decide_toNat _)⟩

/-- Settles O25: a shift halves or doubles the operand that the quirk selects, and VF is the bit it loses. -/
theorem shiftsMoveOnePlace : Obligations.ShiftsMoveOnePlace := by
  intro x y s a ha
  rw [← s.shiftSource_toNat x y] at ha
  subst ha
  refine ⟨aluWith_of_setResultFlag rfl ?_ (shrFlag_toNat _), aluWith_of_setResultFlag rfl ?_ (shlFlag_toNat _)⟩
  · rw [BitVec.toNat_ushiftRight, Nat.shiftRight_one]
  · rw [BitVec.toNat_shiftLeft, Nat.shiftLeft_eq, Nat.mul_comm]

end Sys2Proof.Machine
end

section
/-! SUPPORT. Loads of I, the decimal store, the block store and load: the statements of spec/43_index_memory.md. -/

/-! ## O27, O28, O29: I alone -/

namespace Sys2Proof.Machine

variable {s : State} {p : State → Prop}

/-- A write of I, and then the fetch's advance. -/
theorem State.setIndex_advancesWith (s : State) (a : Addr) (hp : p (s.setIndex a).advance) :
    AdvancesWith [.index] s (.next (s.setIndex a).advance) p :=
  .next_advance (s.setIndex_frame a) rfl hp

/-- Settles O27: the field has the width of I, so the load keeps its value (R140). -/
theorem loadIndexImmediate : Obligations.LoadIndexImmediate := fun nnn s => s.setIndex_advancesWith nnn rfl

/-- A byte added to a 12-bit address: the sum modulo 4096 (R141). -/
theorem addr_add_byte_toNat (a : Addr) (b : Byte) : (a + b.setWidth 12).toNat = (a.toNat + b.toNat) % 4096 := by
  rw [BitVec.toNat_add, BitVec.toNat_setWidth_of_le (by decide)]

/-- Settles O28: both instructions write I alone, so VF stays (D17). -/
theorem indexAddAndLargeFont : Obligations.IndexAddAndLargeFont := fun x s =>
  ⟨s.setIndex_advancesWith _ (addr_add_byte_toNat s.index (s.reg x)), s.setIndex_advancesWith _ rfl⟩

/-- `FX29` for a digit (R143). -/
theorem exec_ldF_of_le {x : Nibble} (h : (s.reg x).toNat ≤ 15) :
    exec (.ldF x) s = .next (s.setIndex (BitVec.ofNat 12 (5 * (s.reg x).toNat))).advance :=
  if_pos ((s.isDigit_iff x).mpr h)

/-- Settles O29: 5d is below 80, so 12 bits hold it, and the load leaves memory, where the font lies (R24). -/
theorem fontAddressReachesGlyph : Obligations.FontAddressReachesGlyph := by
  intro x s hdigit
  have hindex : (BitVec.ofNat 12 (5 * (s.reg x).toNat)).toNat = 5 * (s.reg x).toNat :=
    (BitVec.toNat_ofNat _ _).trans (Nat.mod_eq_of_lt (by omega))
  rw [exec_ldF_of_le hdigit]
  refine s.setIndex_advancesWith _ ⟨hindex, fun hfont k _ hk => ?_⟩
  rw [State.advance_index, State.setIndex_index, hindex]
  exact hfont _ hk

end Sys2Proof.Machine

/-! ## O30: the decimal store -/

namespace Sys2Proof.Machine

variable {s : State} {bs : List Byte}

/-- A store of k + 1 bytes from I upward, checked to lie in memory, puts byte j of them at I + j. -/
theorem State.byte_store_of_le {k j : Nat} (hr : s.index.toNat + k ≤ 0xFFF) (hlen : bs.length = k + 1)
    (hj : j < bs.length) : (s.store (s.effAddr 0) bs).byte (s.index.toNat + j) = bs[j] := by
  rw [State.effAddr_zero, State.byte_store _ _ _ _ (by rw [hlen, memSize]; omega), dif_pos (by omega)]
  simp only [Nat.add_sub_cancel_left]

/-- Such a store leaves every byte below I and above I + k. -/
theorem State.byte_store_of_lt_or_lt {k a : Nat} (hr : s.index.toNat + k ≤ 0xFFF) (hlen : bs.length = k + 1)
    (ha : a < s.index.toNat ∨ s.index.toNat + k < a) : (s.store (s.effAddr 0) bs).byte a = s.byte a := by
  refine State.byte_store_of_outside ((s.inRange_iff k).mpr hr) hlen ?_
  simp only [State.effAddr]
  omega

/-- The digits of a byte as numbers: none of them is cut to 8 bits (R145). -/
theorem decimalDigits_map_toNat (b : Byte) :
    (decimalDigits b).map BitVec.toNat = [b.toNat / 100, b.toNat / 10 % 10, b.toNat % 10] := by
  have hb := b.isLt
  simp only [decimalDigits, List.map_cons, List.map_nil, BitVec.toNat_ofNat, List.cons.injEq, and_true]
  omega

/-- A store of the digits of a byte from I upward puts digit j, the hundreds being digit 0, at I + j. -/
theorem State.byte_store_decimalDigits_toNat (b : Byte) {j : Nat} (hr : s.index.toNat + 2 ≤ 0xFFF) (hj : j < 3) :
    ((s.store (s.effAddr 0) (decimalDigits b)).byte (s.index.toNat + j)).toNat =
      [b.toNat / 100, b.toNat / 10 % 10, b.toNat % 10][j] := by
  simp only [← decimalDigits_map_toNat, List.getElem_map]
  exact congrArg BitVec.toNat (State.byte_store_of_le hr rfl hj)

/-- Settles O30: the three bytes stored are the digits, and the store leaves every other byte. -/
theorem decimalDigitsAreStored : Obligations.DecimalDigitsAreStored := by
  intro x s hle
  have hr : s.index.toNat + 2 ≤ 0xFFF := by omega
  have hdigit (j : Nat) (hj : j < 3) := State.byte_store_decimalDigits_toNat (s.reg x) hr hj
  rw [exec_ldB_of_le hle]
  exact .next_advance (s.store_frame _ _) rfl
    ⟨hdigit 0 (by decide), hdigit 1 (by decide), hdigit 2 (by decide),
      fun _ ha => State.byte_store_of_lt_or_lt hr rfl ha⟩

end Sys2Proof.Machine

/-! ## O31, O32, O33: the block store and the block load -/

namespace Sys2Proof.Machine

variable {s : State}

/-- Settles O31: register r is byte r of what is stored, and I is written after the store (R146). -/
theorem blockStoreWritesRegisters : Obligations.BlockStoreWritesRegisters := by
  intro x s hle
  have hlen := s.regsUpTo_length x
  rw [exec_ldMemVx_of_le hle]
  refine .next_advance ((s.store_frame _ _).comp (State.setIndex_frame _ _)) rfl
    ⟨fun r hr => ?_, fun _ ha => State.byte_store_of_lt_or_lt hle hlen ha, s.indexAfterBlock_toNat x⟩
  have hr' : r.toNat < (s.regsUpTo x).length := by omega
  exact (State.byte_store_of_le hle hlen hr').trans (s.regsUpTo_getElem x r hr')

/-- `FX65` with its whole range in memory (R147). -/
theorem exec_ldVxMem_of_le {x : Nibble} (h : s.index.toNat + x.toNat ≤ 0xFFF) :
    exec (.ldVxMem x) s = .next ((s.setRegs (s.loadedRegs x)).setIndex (s.indexAfterBlock x)).advance :=
  if_pos ((s.inRange_iff x.toNat).mpr h)

/-- A write of the register file, one of I, and then the fetch's advance. It is stated for any register file because
the check that PC is left would otherwise evaluate the loaded one. -/
theorem State.setRegs_setIndex_advancesWith {p : State → Prop} (s : State) (v : Vector Byte 16) (a : Addr)
    (hp : p ((s.setRegs v).setIndex a).advance) :
    AdvancesWith [.regs, .index] s (.next ((s.setRegs v).setIndex a).advance) p :=
  .next_advance ((s.setRegs_frame v).comp (State.setIndex_frame _ a)) rfl hp

/-- Settles O32: the registers are read from memory as the old I addresses it, and I is written after (R147). -/
theorem blockLoadReadsRegisters : Obligations.BlockLoadReadsRegisters := by
  intro x s hle
  rw [exec_ldVxMem_of_le hle]
  refine s.setRegs_setIndex_advancesWith _ _ ⟨fun r => ?_, s.indexAfterBlock_toNat x⟩
  rw [State.advance_reg, State.setIndex_reg, State.loadedRegs_reg]

/-- Settles O33: what the load reads at I + r (O32) is what the store has put there (O31). -/
theorem blockLoadUndoesBlockStore : Obligations.BlockLoadUndoesBlockStore := by
  intro x s hle
  obtain ⟨t, hstore, -, -, hsaved, -, -⟩ := blockStoreWritesRegisters x s hle
  refine ⟨t, hstore, fun t' hbyte hindex => ?_⟩
  obtain ⟨u, hload, -, -, hread, -⟩ := blockLoadReadsRegisters x t' (by rwa [hindex])
  refine ⟨u, hload, fun r hr => ?_⟩
  rw [hread, if_pos hr, hbyte, hindex, hsaved r hr]

end Sys2Proof.Machine
end

section
/-! SUPPORT. Clearing, scrolling, drawing and the mode switches: the statements of spec/44_display.md. -/

/-! ## O40: a draw -/

namespace Sys2Proof.Machine

variable {s t : State} {x y n : Nibble} {row col : Nat}

/-- What `DXYN` makes of the state when it does not fault, the fetch's advance apart (R165). -/
def State.withSprite (s : State) (x y n : Nibble) : State :=
  (s.setReg flagReg (flagByte (s.spriteDrawn x y n).2)).draw (s.spriteDrawn x y n).1

/-- `DXYN` with its unclipped rows in memory (R165, D18). -/
theorem exec_drw_of_fits (h : SpriteFits s y n) : exec (.drw x y n) s = .next (s.withSprite x y n).advance := by
  have hrows : s.visibleRows y n = 0 ∨ s.index.toNat + s.visibleRows y n - 1 ≤ 0xFFF := h
  exact if_pos ((s.spriteInRange_iff y n).mpr (by omega))

theorem State.withSprite_frame (s : State) (x y n : Nibble) :
    SameOutside [.regs, .display, .drawFlag] s (s.withSprite x y n) :=
  (s.setReg_frame flagReg _).comp (State.draw_frame _ _)

theorem State.reg_withSprite_of_ne (s : State) (x y n : Nibble) {r : Nibble} (hr : r ≠ 15) :
    (s.withSprite x y n).reg r = s.reg r :=
  s.reg_setReg_of_ne _ hr

/-! ### The pixels of a draw -/

theorem State.pixel_withSprite (s : State) (x y n : Nibble) (hrow : row < 32) (col : Nat) :
    (s.withSprite x y n).pixel row col = (s.pixel row col ^^ s.spriteBit x y n row col) := by
  rw [State.pixel_of_lt _ hrow]
  exact s.spriteDrawn_getLsbD x y n hrow col

theorem SpriteCovers.row_lt (h : SpriteCovers s x y n row col) : row < 32 := by
  obtain ⟨_, _, _, _, _, hrow, _⟩ := h
  exact hrow

theorem SpriteCovers.col_lt (h : SpriteCovers s x y n row col) : col < 64 := by
  obtain ⟨_, _, _, _, _, _, _, hcol, _⟩ := h
  exact hcol

theorem SpriteCovers.spriteBit (h : SpriteCovers s x y n row col) : s.spriteBit x y n row col = true :=
  (s.spriteBit_iff x y n h.row_lt h.col_lt).mpr h

/-- A draw flips a covered pixel. -/
theorem SpriteCovers.pixel_withSprite (h : SpriteCovers s x y n row col) :
    (s.withSprite x y n).pixel row col = !s.pixel row col := by
  rw [s.pixel_withSprite x y n h.row_lt, h.spriteBit, Bool.xor_true]

/-! ### The collision flag -/

/-- A sprite bit is 1 in an unclipped row, where the byte at I + r gives it. -/
theorem State.spriteBit_eq_true_iff (s : State) (x y n : Nibble) (row col : Nat) :
    s.spriteBit x y n row col = true ↔
      (s.originRow y ≤ row ∧ row < s.originRow y + s.visibleRows y n) ∧
        (spriteRow (s.byte (s.index.toNat + (row - s.originRow y))) (s.originCol x)).getLsbD col = true := by
  rw [State.spriteBit, Bool.and_eq_true, decide_eq_true_iff]

/-- The same by the number r of the sprite row (R165). -/
theorem State.spriteBit_eq_true_iff_exists (s : State) (x y n : Nibble) (row col : Nat) :
    s.spriteBit x y n row col = true ↔ ∃ r < s.visibleRows y n, row = s.originRow y + r ∧
      (spriteRow (s.byte (s.index.toNat + r)) (s.originCol x)).getLsbD col = true := by
  rw [s.spriteBit_eq_true_iff]
  constructor
  · rintro ⟨⟨hle, hlt⟩, hbit⟩
    exact ⟨_, Nat.sub_lt_left_of_lt_add hle hlt, (Nat.add_sub_of_le hle).symm, hbit⟩
  · rintro ⟨r, hr, rfl, hbit⟩
    rw [Nat.add_sub_cancel_left]
    exact ⟨⟨Nat.le_add_right _ _, Nat.add_lt_add_left hr _⟩, hbit⟩

/-- A draw reports a collision exactly when it covers a set pixel. -/
theorem State.spriteDrawn_hit_iff (s : State) (x y n : Nibble) :
    (s.spriteDrawn x y n).2 = true ↔ ∃ row col, SpriteCovers s x y n row col ∧ s.pixel row col = true := by
  have hle := s.visibleRows_le y n
  rw [State.spriteDrawn, drawRows_hit _ _ _ _ _ _ hle]
  simp only [and_ne_zero_iff]
  constructor
  · rintro ⟨r, hr, col, hcol, hset, hbit⟩
    have hrow : s.originRow y + r < 32 := by omega
    have hcovers := (s.spriteBit_eq_true_iff_exists x y n _ col).mpr ⟨r, hr, rfl, hbit⟩
    rw [s.spriteBit_iff x y n hrow hcol] at hcovers
    exact ⟨_, col, hcovers, (s.pixel_of_lt hrow col).trans hset⟩
  · rintro ⟨row, col, hcovers, hset⟩
    obtain ⟨r, hr, rfl, hbit⟩ := (s.spriteBit_eq_true_iff_exists x y n row col).mp hcovers.spriteBit
    rw [s.pixel_of_lt hcovers.row_lt] at hset
    exact ⟨r, hr, col, hcovers.col_lt, hset, hbit⟩

theorem State.flag_withSprite (s : State) (x y n : Nibble) :
    (s.withSprite x y n).reg 15 = flagByte (s.spriteDrawn x y n).2 :=
  s.reg_setReg_self 15 _

theorem flagByte_eq_one_iff (b : Bool) : flagByte b = 1 ↔ b = true := by
  cases b <;> decide

theorem flagByte_eq_zero_iff (b : Bool) : flagByte b = 0 ↔ b = false := by
  cases b <;> decide

theorem State.flag_withSprite_eq_one_iff (s : State) (x y n : Nibble) :
    (s.withSprite x y n).reg 15 = 1 ↔ ∃ row col, SpriteCovers s x y n row col ∧ s.pixel row col = true := by
  rw [s.flag_withSprite, flagByte_eq_one_iff, s.spriteDrawn_hit_iff]

theorem State.flag_withSprite_eq_zero_iff (s : State) (x y n : Nibble) :
    (s.withSprite x y n).reg 15 = 0 ↔ ¬ ∃ row col, SpriteCovers s x y n row col ∧ s.pixel row col = true := by
  rw [s.flag_withSprite, flagByte_eq_zero_iff, ← s.spriteDrawn_hit_iff, Bool.not_eq_true]

/-- Settles O40: pixel by pixel a draw is an exclusive or with the sprite bit, and VF is its collision. -/
theorem drawFlipsCoveredPixels : Obligations.DrawFlipsCoveredPixels := by
  intro x y n s hfits
  rw [exec_drw_of_fits hfits]
  exact .next_advance (s.withSprite_frame x y n) rfl
    ⟨fun _ _ _ _ hcovers => hcovers.pixel_withSprite,
      fun _ _ hrow hcol hnot => State.pixel_of_not_covered hrow hcol hnot rfl,
      (s.flag_withSprite_eq_one_iff x y n).mpr, (s.flag_withSprite_eq_zero_iff x y n).mpr,
      fun _ hr => s.reg_withSprite_of_ne x y n hr, rfl⟩

end Sys2Proof.Machine

/-! ## O37, O38, O39: clearing, scrolling and the mode switches -/

namespace Sys2Proof.Machine

variable {s : State} {p : State → Prop}

/-- A write of the display, which sets `draw_flag` (R162), and then the fetch's advance. -/
theorem State.draw_advancesWith (s : State) (d : Vector (BitVec 64) 32) (hp : p (s.draw d).advance) :
    AdvancesWith [.display, .drawFlag] s (.next (s.draw d).advance) p :=
  .next_advance (s.draw_frame d) rfl hp

theorem State.pixel_of_blank (h : s.display = blankDisplay) (row col : Nat) : s.pixel row col = false := by
  rw [State.pixel, h, blankDisplay, Vector.getElem?_replicate]
  split <;> exact BitVec.getLsbD_zero

theorem State.pixel_draw_scrollDown (s : State) (n : Nat) {row : Nat} (hrow : row < 32) (col : Nat) :
    (s.draw (scrollDown s.display n)).pixel row col = if row < n then false else s.pixel (row - n) col := by
  rw [State.pixel_of_lt _ hrow]
  simp only [State.draw_display, scrollDown_getElem]
  split
  · exact BitVec.getLsbD_zero
  · rfl

/-- Settles O37: the display written is the blank one, and VF is no part of it (R160). -/
theorem clearZeroesTheFramebuffer : Obligations.ClearZeroesTheFramebuffer := fun s =>
  s.draw_advancesWith _ ⟨State.pixel_of_blank rfl, rfl⟩

/-- Settles O38: the display written is the scrolled one, in which columns do not move (R161). -/
theorem scrollDownMovesRows : Obligations.ScrollDownMovesRows := fun n s =>
  s.draw_advancesWith _ ⟨fun row col hrow _ =>
    (State.advance_pixel _ row col).trans (s.pixel_draw_scrollDown n.toNat hrow col), rfl⟩

/-- Settles O39: both switches are one write of `hires` (D11). -/
theorem resolutionSwitchesOnlySetHires : Obligations.ResolutionSwitchesOnlySetHires := fun s =>
  ⟨.next_advance (s.setHires_frame true) rfl rfl, .next_advance (s.setHires_frame false) rfl rfl⟩

end Sys2Proof.Machine

/-! ## O41: two draws -/

namespace Sys2Proof.Machine

variable {s t : State} {x y n : Nibble} {row col : Nat}

/-- `t` draws the sprite that `s` draws: the same place, and the same bytes in the unclipped rows. -/
structure SameSprite (x y n : Nibble) (s t : State) : Prop where
  index : t.index = s.index
  regX : t.reg x = s.reg x
  regY : t.reg y = s.reg y
  byte : ∀ r < spriteRows s y n, t.byte (s.index.toNat + r) = s.byte (s.index.toNat + r)

theorem SameSprite.fits (h : SameSprite x y n s t) (hs : SpriteFits s y n) : SpriteFits t y n := by
  simpa only [SpriteFits, spriteRows, spriteY0, h.index, h.regY] using hs

/-- The bytes of clipped rows, which may differ, make no sprite bit. -/
theorem SameSprite.spriteBit_eq (h : SameSprite x y n s t) (row col : Nat) :
    t.spriteBit x y n row col = s.spriteBit x y n row col := by
  rw [Bool.eq_iff_iff, t.spriteBit_eq_true_iff, s.spriteBit_eq_true_iff]
  simp only [State.visibleRows, State.originRow, State.originCol, h.index, h.regX, h.regY]
  refine and_congr_right fun ⟨hle, hlt⟩ => ?_
  rw [h.byte _ (Nat.sub_lt_left_of_lt_add hle hlt)]

theorem SameSprite.covers_iff (h : SameSprite x y n s t) :
    SpriteCovers t x y n row col ↔ SpriteCovers s x y n row col := by
  constructor
  · intro hc
    rw [← s.spriteBit_iff x y n hc.row_lt hc.col_lt, ← h.spriteBit_eq]
    exact hc.spriteBit
  · intro hc
    rw [← t.spriteBit_iff x y n hc.row_lt hc.col_lt, h.spriteBit_eq]
    exact hc.spriteBit

/-- The second draw's sprite bits cancel the first's. -/
theorem SameSprite.pixel_second_draw (h : SameSprite x y n s t) (ht : t.display = (s.withSprite x y n).display)
    (hrow : row < 32) (col : Nat) : (t.withSprite x y n).pixel row col = s.pixel row col := by
  rw [t.pixel_withSprite x y n hrow, State.pixel_of_display_eq ht, s.pixel_withSprite x y n hrow, h.spriteBit_eq,
    Bool.xor_assoc, Bool.xor_self, Bool.xor_false]

/-- The second draw collides exactly where the first turned a pixel from 0 to 1 (R166). -/
theorem SameSprite.flag_second_draw (h : SameSprite x y n s t) (ht : t.display = (s.withSprite x y n).display) :
    (t.withSprite x y n).reg 15 = 1 ↔ ∃ row col, SpriteCovers s x y n row col ∧ s.pixel row col = false := by
  rw [t.flag_withSprite_eq_one_iff]
  refine exists_congr fun row => exists_congr fun col => ?_
  rw [h.covers_iff]
  refine and_congr_right fun hc => ?_
  rw [State.pixel_of_display_eq ht, hc.pixel_withSprite, Bool.not_eq_true']

/-- On a blank display a draw leaves exactly the sprite. -/
theorem State.pixel_withSprite_of_blank (hs : s.display = blankDisplay) (hrow : row < 32) (hcol : col < 64) :
    (s.withSprite x y n).pixel row col = true ↔ SpriteCovers s x y n row col := by
  rw [s.pixel_withSprite x y n hrow, State.pixel_of_blank hs, Bool.false_xor, s.spriteBit_iff x y n hrow hcol]

/-- On a blank display a draw has nothing to collide with. -/
theorem State.flag_withSprite_of_blank (hs : s.display = blankDisplay) : (s.withSprite x y n).reg 15 = 0 := by
  rw [s.flag_withSprite_eq_zero_iff]
  rintro ⟨row, col, -, hset⟩
  rw [State.pixel_of_blank hs] at hset
  cases hset

/-- Settles O41: a draw is an exclusive or (O40), which undoes itself and which on a blank display is the sprite. -/
theorem drawingTwiceRestoresTheDisplay : Obligations.DrawingTwiceRestoresTheDisplay := by
  intro x y n s _ _ hfits
  refine ⟨⟨_, exec_drw_of_fits hfits, fun t hdisplay hindex hx hy hbyte => ?_⟩, ?_⟩
  · have hsame : SameSprite x y n s t := ⟨hindex, hx, hy, hbyte⟩
    exact ⟨_, exec_drw_of_fits (hsame.fits hfits), fun _ col hrow _ => hsame.pixel_second_draw hdisplay hrow col,
      hsame.flag_second_draw hdisplay⟩
  · have hsame : SameSprite x y n s (s.draw blankDisplay).advance := ⟨rfl, rfl, rfl, fun _ _ => rfl⟩
    exact ⟨_, _, rfl, exec_drw_of_fits (hsame.fits hfits), State.flag_withSprite_of_blank rfl,
      fun _ _ hrow hcol => (State.pixel_withSprite_of_blank rfl hrow hcol).trans hsame.covers_iff⟩

end Sys2Proof.Machine

/-! ## O42: the draw flag -/

namespace Sys2Proof.Machine

variable {i : Instr} {s t : State}

/-- The rules that list `draw_flag` are those of the drawing opcodes (R162, D11). -/
theorem drawFlag_mem_documentedParts_iff (i : Instr) : .drawFlag ∈ documentedParts i ↔ isDrawing i := by
  cases i <;> simp [documentedParts, isDrawing]

theorem fault_notMem_documentedParts (i : Instr) : .fault ∉ documentedParts i := by
  cases i <;> simp [documentedParts]

/-- An instruction that completes leaves the record, so a fault in the answer is one that it took. -/
theorem CompletesOrFaults.drawFlag_of_faulted (h : CompletesOrFaults i s t) (hs : s.faulted = false)
    (ht : t.faulted = true) : t.drawFlag = s.drawFlag := by
  obtain hframe | ⟨c, rfl⟩ := h
  · have hfault : t.fault = s.fault := hframe.fault (by simp [fault_notMem_documentedParts])
    rw [State.faulted, hfault, ← State.faulted, hs] at ht
    cases ht
  · rfl

theorem CompletesOrFaults.drawFlag_of_not_drawing (h : CompletesOrFaults i s t) (hi : ¬ isDrawing i) :
    t.drawFlag = s.drawFlag :=
  h.sameOutside.drawFlag (by simp [drawFlag_mem_documentedParts_iff, hi])

/-- A drawing opcode sets `draw_flag`, or faults. -/
theorem exec_drawing_sets_drawFlag (hi : isDrawing i) (s : State) :
    Answers (exec i s) fun t => t.faulted = false → t.drawFlag = true := by
  cases i with
  | scd | cls => exact .next fun _ => rfl
  | drw => exact .ite (fun _ => .next fun _ => rfl) (fun _ => .next nofun)
  | _ => exact hi.elim

/-- Settles O42: by whether the instruction draws, and by whether it completes or faults. -/
theorem onlyDrawingSetsDrawFlag : Obligations.OnlyDrawingSetsDrawFlag := by
  intro i s t ht hs
  have hanswer := (exec_completesOrFaults i s).of_eq_next ht
  exact ⟨fun hi => (exec_drawing_sets_drawFlag hi s).of_eq_next ht, hanswer.drawFlag_of_faulted hs,
    hanswer.drawFlag_of_not_drawing⟩

end Sys2Proof.Machine
end

section
/-! SUPPORT. The key wait, the key skips, the timer registers and the RPL forms: the statements of
spec/45_keypad_timers_misc.md. -/

/-! ## O49, O48, O50: the key wait -/

namespace Sys2Proof.Machine

variable {s : State} {k : Nat}

/-! ### Cycles that change nothing -/

/-- A run of the core, cycle by cycle. -/
theorem run_succ_of_next {t : State} (h : step s = .next t) (n : Nat) : core.run (n + 1) s = core.run n t := by
  have hcore : core.step s = .next t := h
  simp only [Host.Core.run, hcore]

/-- A state that one cycle leaves as it is, any number of cycles leaves as it is. -/
theorem run_of_step_eq_self (h : step s = .next s) (n : Nat) : core.run n s = .next s := by
  induction n with
  | zero => rfl
  | succ n ih => exact (run_succ_of_next h n).trans ih

/-- A cycle in a wait with no key down changes nothing, be the core paused, faulted or scanning (R81, R183). -/
theorem step_of_waiting_no_key (hw : s.waitingForKey = true) (hk : ∀ k, k < 16 → s.keyPressed k = false) :
    step s = .next s := by
  have hscan : keyWaitScan s = s := keyWaitScan_of_none s ((firstKey_eq_none_iff s).mpr hk)
  cases hp : s.paused with
  | true => exact (step_of_paused hp).1
  | false =>
    cases hf : s.faulted with
    | true => exact (step_of_faulted hp hf).1
    | false => exact (step_of_waiting hp hf hw).1.trans (congrArg _ hscan)

/-- Settles O49: a wait with no key down is a fixed point of the cycle. -/
theorem keyWaitBlocksUntilKey : Obligations.KeyWaitBlocksUntilKey := fun n _ hw hk =>
  run_of_step_eq_self (step_of_waiting_no_key hw hk) n

/-! ### The scan that captures a key -/

/-- The captured key's number goes to the recorded register, and to no other; 8 bits hold it (R183). -/
theorem reg_keyWaitScan_toNat (h : firstKey s = some k) (r : Nibble) :
    ((keyWaitScan s).reg r).toNat = if r = s.keyRegister then k else (s.reg r).toNat := by
  have hk : k < 16 := ((firstKey_eq_some_iff s k).mp h).1
  have hreg : (keyWaitScan s).reg r = (s.setReg s.keyRegister (BitVec.ofNat 8 k)).reg r := by
    rw [keyWaitScan_of_some s k h]
    rfl
  rw [hreg, State.reg_setReg, apply_ite BitVec.toNat, BitVec.toNat_ofNat, Nat.mod_eq_of_lt (by omega)]

/-- Settles O48: the key search decides between the two cases, and each is the scan's answer to it. -/
theorem keyWaitScanCapturesLowestKey : Obligations.KeyWaitScanCapturesLowestKey := by
  intro s hp hf hw
  obtain ⟨hstep, hout⟩ := step_of_waiting hp hf hw
  refine ⟨fun k hk hdown hlow => ?_, fun hup => ⟨step_of_waiting_no_key hw hup, ?_⟩⟩
  · have hfirst : firstKey s = some k := (firstKey_eq_some_iff s k).mpr ⟨hk, hdown, hlow⟩
    have hscan := keyWaitScan_of_some s k hfirst
    refine ⟨keyWaitScan s, hstep, ?_, ?_, ?_, reg_keyWaitScan_toNat hfirst, keyWaitScan_frame s⟩
    · rw [hout, hfirst, Option.isSome_some, if_pos rfl]
    · rw [hscan]
    · rw [hscan, State.setReg_keyRegister]
  · rw [hout, (firstKey_eq_none_iff s).mpr hup, Option.isSome_none, if_neg Bool.false_ne_true]

/-- Settles O50: `FX0A` is the entry of the wait and the fetch's advance; it asks for no key (C1, D20). -/
theorem keyWaitIsEntered : Obligations.KeyWaitIsEntered := fun x s =>
  .next_advance (s.awaitKey_frame x) rfl ⟨s.awaitKey_waitingForKey x, s.awaitKey_keyRegister x⟩

end Sys2Proof.Machine

/-! ## O51: the key skips -/

namespace Sys2Proof.Machine

variable {s : State} {x : Nibble}

theorem State.keyPressed_of_lt (s : State) {k : Nat} (h : k < 16) : s.keyPressed k = s.keys[k] := by
  rw [State.keyPressed, Vector.getElem?_eq_getElem h, Option.getD_some]

/-- `EX9E` for a key number (R180). -/
theorem exec_skp_of_lt (h : (s.reg x).toNat < 16) :
    exec (.skp x) s = .next (s.advanceSkip (decide (s.keys[(s.reg x).toNat] = true))) := by
  rw [Bool.decide_eq_true, ← s.keyPressed_of_lt h]
  exact if_pos ((s.isDigit_iff x).mpr (Nat.le_of_lt_succ h))

/-- `EXA1` for a key number (R181). -/
theorem exec_sknp_of_lt (h : (s.reg x).toNat < 16) :
    exec (.sknp x) s = .next (s.advanceSkip (decide ¬s.keys[(s.reg x).toNat] = true)) := by
  rw [decide_not, Bool.decide_eq_true, ← s.keyPressed_of_lt h]
  exact if_pos ((s.isDigit_iff x).mpr (Nat.le_of_lt_succ h))

/-- Settles O51: a key number passes the test of `V[x]`, and the skip is then taken by the key it names (D9). -/
theorem keySkipsSampleTheKey : Obligations.KeySkipsSampleTheKey := by
  rintro x s _ rfl hkey
  rw [exec_skp_of_lt hkey, exec_sknp_of_lt hkey]
  exact ⟨s.advanceSkip_answers _, s.advanceSkip_not_answers _⟩

end Sys2Proof.Machine

/-! ## O52, O53: the timer registers and the no-operations -/

namespace Sys2Proof.Machine

variable {s : State} {i : Instr}

/-- Settles O52: one register write, or one timer write of the old `V[x]`. -/
theorem timerRegistersAreReadAndWritten : Obligations.TimerRegistersAreReadAndWritten := fun x s =>
  ⟨s.setReg_advancesWith x s.dt, .next_advance (s.setDt_frame _) rfl rfl, .next_advance (s.setSt_frame _) rfl rfl⟩

/-- The cycle of a running core whose instruction completes without touching the record is reported `Executed`. -/
theorem cycleOutcome_eq_executed {t : State} (hr : s.running = true) (hx : fetch s = some (encode i))
    (hi : exec i s = .next t) (ht : t.fault = s.fault) : cycleOutcome s = .executed := by
  obtain ⟨-, hf, -⟩ := running_iff.mp hr
  have hcode : t.fault.code = none := by rwa [ht, ← Option.not_isSome_iff_eq_none, ← State.faulted, Bool.not_eq_true]
  rw [(step_of_instr hr hx (decodeWord_encode i)).2, hi, executeOutcome, hcode]

/-- Settles O53: both forms mean the fetch's advance alone, and their words decode to them, not to unknown (D12). -/
theorem rplFormsAreRecognisedNoOps : Obligations.RplFormsAreRecognisedNoOps := by
  intro x s i hi
  have hexec : exec i s = .next s.advance := by
    obtain rfl | rfl := hi <;> rfl
  rw [hexec]
  exact ⟨.next_advance (.rfl' s) rfl trivial, fun hr hx => cycleOutcome_eq_executed hr hx hexec s.advance_fault⟩

end Sys2Proof.Machine
end

section
/-! SUPPORT. The host's operations between cycles and the disassembler: the statements of spec/60_exceptions.md. -/

/-! ## O54: the tick -/

namespace Sys2Proof.Machine

/-- The tick is a write of each timer. -/
theorem updateTimers_eq (s : State) : updateTimers s = (s.setDt (tickDown s.dt)).setSt (tickDown s.st) := rfl

theorem updateTimers_frame (s : State) : SameOutside [.dt, .st] s (updateTimers s) :=
  (s.setDt_frame _).comp ((s.setDt (tickDown s.dt)).setSt_frame (tickDown s.st))

/-- Settles O54, by induction on the number of ticks: the first takes 1 from each timer that is not 0, the other k
take k. -/
theorem ticksCountDownToZero : Obligations.TicksCountDownToZero := by
  intro k
  induction k with
  | zero => exact fun s => ⟨s, rfl, rfl, rfl, .rfl' s⟩
  | succ k ih =>
    intro s
    obtain ⟨t, hrun, hdt, hst, hframe⟩ := ih (updateTimers s)
    simp only [updateTimers_eq, State.setSt_dt, State.setDt_dt, State.setSt_st, tickDown_toNat] at hdt hst
    refine ⟨t, ?_, by omega, by omega, (updateTimers_frame s).trans hframe⟩
    rw [List.replicate_succ, runEvents_cons_of_next rfl]
    exact hrun

end Sys2Proof.Machine

/-! ## O55: the key events -/

namespace Sys2Proof.Machine

variable {k : Int} {b : Bool} {s : State}

/-- The guarded write of one key that `key_down` makes with `true` and `key_up` with `false` (R215). -/
def writeKey (b : Bool) (k : Int) (s : State) : State := if keyIndexOk k then s.setKey k.toNat b else s

theorem keyDown_eq_writeKey (k : Int) (s : State) : keyDown k s = writeKey true k s := rfl

theorem keyUp_eq_writeKey (k : Int) (s : State) : keyUp k s = writeKey false k s := rfl

theorem keyIndexOk_iff (k : Int) : keyIndexOk k = true ↔ 0 ≤ k ∧ k ≤ 15 := decide_eq_true_iff

theorem writeKey_of_ok (h0 : 0 ≤ k) (h15 : k ≤ 15) : writeKey b k s = s.setKey k.toNat b :=
  if_pos ((keyIndexOk_iff k).mpr ⟨h0, h15⟩)

theorem writeKey_of_not_ok (h : k < 0 ∨ 15 < k) : writeKey b k s = s :=
  if_neg fun hk => by
    obtain ⟨h0, h15⟩ := (keyIndexOk_iff k).mp hk
    omega

theorem keyPressed_writeKey (h0 : 0 ≤ k) (h15 : k ≤ 15) (j : Nat) :
    (writeKey b k s).keyPressed j = if (j : Int) = k then b else s.keyPressed j := by
  rw [writeKey_of_ok h0 h15, State.keyPressed_setKey s k.toNat j b (by omega)]
  exact if_congr (by omega) rfl rfl

theorem State.setKey_frame (s : State) (k : Nat) (b : Bool) : SameOutside [.keys] s (s.setKey k b) := by
  constructor <;> simp

theorem State.setKey_setKey (s : State) (k : Nat) (b : Bool) : (s.setKey k b).setKey k b = s.setKey k b := by
  simp [State.setKey]

theorem writeKey_frame (b : Bool) (k : Int) (s : State) : SameOutside [.keys] s (writeKey b k s) := by
  unfold writeKey
  split
  · exact s.setKey_frame _ b
  · exact .rfl' s

theorem writeKey_writeKey (b : Bool) (k : Int) (s : State) : writeKey b k (writeKey b k s) = writeKey b k s := by
  unfold writeKey
  split
  · exact s.setKey_setKey _ b
  · rfl

/-- Settles O55: both events are `writeKey`, which writes the key of an index in range and is the identity otherwise. -/
theorem keyEventsWriteOneKey : Obligations.KeyEventsWriteOneKey := by
  intro k s
  simp only [keyDown_eq_writeKey, keyUp_eq_writeKey]
  exact ⟨fun h0 h15 j _ => ⟨keyPressed_writeKey h0 h15 j, keyPressed_writeKey h0 h15 j⟩,
    fun h => ⟨writeKey_of_not_ok h, writeKey_of_not_ok h⟩,
    writeKey_frame true k s, writeKey_frame false k s, writeKey_writeKey true k s, writeKey_writeKey false k s⟩

end Sys2Proof.Machine

/-! ## O56: the handshakes -/

namespace Sys2Proof.Machine

theorem ackDraw_frame (s : State) : SameOutside [.drawFlag] s (ackDraw s) := by
  constructor <;> simp [ackDraw, State.byte, State.reg]

theorem setPaused_frame (b : Bool) (s : State) : SameOutside [.paused] s (setPaused b s) := by
  constructor <;> simp [setPaused, State.byte, State.reg]

/-- Settles O56: each handshake updates one field of the state, so writing the old `paused` again undoes it. -/
theorem handshakesWriteOneBit : Obligations.HandshakesWriteOneBit := fun b s =>
  ⟨rfl, ackDraw_frame s, rfl, setPaused_frame b s, rfl⟩

end Sys2Proof.Machine

/-! ## O10: the disassembler -/

namespace Sys2Proof.Machine

variable {w v : Word} {i : Instr}

theorem disassembleChars_of_instr (h : decodeWord w = .instr i) : disassembleChars w = instrText i := by
  rw [disassembleChars, h]

theorem disassembleChars_of_unknown (h : decodeWord w = .unknown v) :
    disassembleChars w = ['?', '?', '?', ' '] ++ wordText v := by
  rw [disassembleChars, h]

/-- The word of an instruction is printed as that instruction. -/
theorem disassembleChars_encode (i : Instr) : disassembleChars (encode i) = instrText i :=
  disassembleChars_of_instr (decodeWord_encode i)

/-- A count is one digit; only above 9 may it be two, by the choice the spec leaves open (R72; log entry 16). -/
theorem countText_cases (n : Nibble) :
    countText n = [hexDigit n] ∨ 9 < n.toNat ∧ countText n = ['1', hexDigit (n - 10)] := by
  unfold countText
  split
  · next h =>
    obtain ⟨h9, -⟩ := Bool.and_eq_true_iff.mp h
    exact .inr ⟨of_decide_eq_true h9, rfl⟩
  · exact .inl rfl

/-- Settles O10: the four sample words by evaluation, an unknown word by its decoding, a `DRW` by its text. -/
theorem disassemblyTexts : Obligations.DisassemblyTexts := by
  refine ⟨by decide, by decide, by decide, by decide, fun w hw => disassembleChars_of_unknown hw, fun x y n => ?_⟩
  exact ⟨countText n, disassembleChars_encode (.drw x y n), countText_cases n⟩

end Sys2Proof.Machine
end

section
/-! SUPPORT. Loading a ROM: the statement of spec/70_reset_and_hazards.md. -/

/-! ## O3: loading a ROM -/

namespace Sys2Proof.Machine

variable {s : State} {a : Nat} {bs : List Byte}

/-! ### A store that lies in memory, inside and outside its range -/

theorem State.byte_store_getElem (h : a + bs.length ≤ memSize) {k : Nat} (hk : k < bs.length) :
    (s.store a bs).byte (a + k) = bs[k] := by
  rw [State.byte_store s a _ bs h, dif_pos (by omega)]
  simp only [Nat.add_sub_cancel_left]

theorem State.byte_store_of_lt_or_le (h : a + bs.length ≤ memSize) {n : Nat} (hn : n < a ∨ a + bs.length ≤ n) :
    (s.store a bs).byte n = s.byte n := by
  rw [State.byte_store s a n bs h, dif_neg (by omega)]

/-! ### The two answers of `load_rom` -/

theorem loadRom_of_le (h : bs.length ≤ 3584) (s : State) : loadRom bs s = (true, (hostReset s).store 0x200 bs) :=
  if_pos (decide_eq_true h)

theorem loadRom_of_lt (h : 3584 < bs.length) (s : State) : loadRom bs s = (false, s) :=
  if_neg (mt of_decide_eq_true h.not_ge)

/-- Settles O3: a ROM of at most 3584 bytes is one store over the reset state, which ends in memory since
0x200 + 3584 = 0x1000 (R241); a longer one leaves the state (D21). -/
theorem loadRomResetsThenCopies : Obligations.LoadRomResetsThenCopies := by
  refine fun bytes s => ⟨fun hlen => ?_, fun hlen => loadRom_of_lt hlen s⟩
  have hfits : 0x200 + bytes.length ≤ memSize := Nat.add_le_add_left hlen 0x200
  exact ⟨_, loadRom_of_le hlen s, fun _ hk => State.byte_store_getElem hfits hk,
    fun _ ha => State.byte_store_of_lt_or_le hfits ha, (hostReset s).store_frame 0x200 bytes⟩

end Sys2Proof.Machine
end

section
/-! SUPPORT. The state after reset: the statements of spec/10_state.md on reset values. -/

/-! ## O1, O59: the core as first made -/

namespace Sys2Proof.Machine

variable {f : Font} {q : Quirks} {p : Bool} {n : Nat}

theorem State.reg_resetWith (r : Nibble) : (State.resetWith f q p n).reg r = 0 :=
  Vector.getElem_replicate r.isLt

theorem State.keyPressed_resetWith (k : Nat) : (State.resetWith f q p n).keyPressed k = false := by
  rw [State.keyPressed, State.resetWith, Vector.getElem?_replicate]
  split <;> rfl

/-- The default font is the table of the default glyphs, with 0 above it (R24, R41). -/
theorem resetByte_defaultFont (a : Nat) :
    resetByte defaultFont a = if a < 80 then defaultGlyphs.getD a 0 else 0 := by
  split
  · next h => exact (resetByte_of_lt h).trans (List.getD_eq_getElem _ _ h).symm
  · next h => exact resetByte_of_le (Nat.le_of_not_lt h)

/-- Settles O1: the values of `resetWith` (R27) with the default font; on a blank display every pixel is 0. -/
theorem resetLeavesFontPcAndZeros : Obligations.ResetLeavesFontPcAndZeros :=
  ⟨rfl, resetByte_defaultFont, rfl, State.reg_resetWith, rfl, rfl, fun _ h => Vector.getElem_replicate h, rfl, rfl,
    State.pixel_of_blank rfl, State.keyPressed_resetWith, rfl, rfl, rfl, rfl, rfl, rfl⟩

/-- Settles O59: the core as first made is a reset state. -/
theorem resetHasTheInvariant : Obligations.ResetHasTheInvariant := resetWith_inv ..

end Sys2Proof.Machine
end

section
/-! SUPPORT. What raises each fault, what a fault leaves and how long it stays: the statements of
spec/60_exceptions.md on faults. -/

/-! ## O5, O18, O35, O36: what raises each fault -/

namespace Sys2Proof.Machine

variable {s : State} {c : Fault} {op : Word} {r : Result}

/-- An answer that is the state before with a record is a fault: nothing else is written (R203). -/
theorem FaultsWith.of_eq_raiseFault (h : r = .next (s.raiseFault c op)) : FaultsWith c op s r :=
  ⟨s.raiseFault c op, h, rfl, s.raiseFault_frame c op⟩

/-- Settles O5: no word is fetched, and the cycle's answer is then the fetch fault (R44). -/
theorem fetchOutsideMemoryFaults : Obligations.FetchOutsideMemoryFaults := by
  intro s hr hpc
  obtain ⟨hstep, hout⟩ := step_of_fetch_none hr ((fetch_eq_none_iff s).mpr hpc)
  exact ⟨.of_eq_raiseFault hstep, hout, rfl⟩

/-- Settles O18: the test that guards the push fails at SP = 16, the one that guards the pop at SP = 0 (R202). -/
theorem stackLimitsFault : Obligations.StackLimitsFault :=
  ⟨fun _ _ hsp => .of_eq_raiseFault (dif_neg hsp.not_lt), fun _ hsp => .of_eq_raiseFault (dif_neg hsp.not_gt), rfl, rfl⟩

/-- The test that guards a draw is R165's condition for no fault (D18). -/
theorem State.spriteInRange_iff_fits (s : State) (y n : Nibble) : s.spriteInRange y n = true ↔ SpriteFits s y n := by
  have hfits : SpriteFits s y n ↔ s.visibleRows y n = 0 ∨ s.index.toNat + s.visibleRows y n - 1 ≤ 0xFFF := .rfl
  rw [s.spriteInRange_iff, hfits]
  omega

theorem State.not_inRange {k : Nat} (h : 0xFFF < s.index.toNat + k) : ¬ s.inRange k = true :=
  mt (s.inRange_iff k).mp h.not_ge

/-- Settles O35: each of the four tests the last address it would access, and faults when that is above 0xFFF (R45). -/
theorem dataOutsideMemoryFaults : Obligations.DataOutsideMemoryFaults := by
  refine ⟨fun x s h => ?_, fun x s h => ⟨?_, ?_⟩, fun x y n s h => ?_, rfl⟩
  · exact .of_eq_raiseFault (if_neg (State.not_inRange (by omega)))
  · exact .of_eq_raiseFault (if_neg (State.not_inRange h))
  · exact .of_eq_raiseFault (if_neg (State.not_inRange h))
  · exact .of_eq_raiseFault (if_neg (mt (s.spriteInRange_iff_fits y n).mp h))

/-- Settles O36: the three instructions share the test of `V[x]` (D9). -/
theorem operandOutOfRangeFaults : Obligations.OperandOutOfRangeFaults := by
  intro x s h
  have hdigit : ¬ s.isDigit x = true := mt (s.isDigit_iff x).mp h.not_ge
  exact ⟨.of_eq_raiseFault (if_neg hdigit), .of_eq_raiseFault (if_neg hdigit), .of_eq_raiseFault (if_neg hdigit), rfl⟩

end Sys2Proof.Machine

/-! ## O46: what a fault leaves -/

namespace Sys2Proof.Machine

variable {i : Instr} {s t : State} {c : Fault} {w : Word}

/-- The record of an answer with a fault is not the one of a state without. -/
theorem fault_ne_of_not_faulted (hs : s.faulted = false) (hc : t.fault.code = some c) : t.fault ≠ s.fault := by
  intro heq
  rw [State.faulted, ← heq, hc] at hs
  cases hs

@[simp] theorem State.advanceSkip_fault (s : State) (b : Bool) : (s.advanceSkip b).fault = s.fault :=
  (s.advanceSkip_frame b).fault (by decide)

/-- The fetch fault is the fetch's alone: an instruction leaves the record or records another cause (R201). -/
theorem exec_keeps_fault_or_ne_fetch (i : Instr) (s : State) :
    Answers (exec i s) fun t => t.fault = s.fault ∨ t.fault.code ≠ some .fetchOutOfRange := by
  cases i with
  | ret | call => exact .dite (fun _ => .next (.inl rfl)) (fun _ => .next (.inr nofun))
  | ldF | ldB | drw | ldMemVx | ldVxMem | skp | sknp =>
    exact .ite (fun _ => .next (.inl (by simp))) (fun _ => .next (.inr nofun))
  | scd | cls | low | high | jp | jpV0 | seImm | sneImm | seReg | sneReg | ldImm | addImm | ldReg | orReg | andReg | xorReg
  | addReg | subReg | shr | subn | shl | ldI | rnd | ldVxDt | ldVxK | ldDtVx | ldStVx | addI | ldHf | ldRVx | ldVxR =>
    exact .next (.inl (by simp))

/-- An instruction that records a fault answers the state before and the record, with its own word as the opcode. -/
theorem exec_fault_precise (h : exec i s = .next t) (hs : s.faulted = false) (hc : t.fault.code = some c) :
    t = s.raiseFault c (encode i) ∧ c ≠ .fetchOutOfRange := by
  have hne := fault_ne_of_not_faulted hs hc
  have hcause := ((exec_keeps_fault_or_ne_fetch i s).of_eq_next h).resolve_left hne
  obtain hframe | ⟨c', rfl⟩ := (exec_completesOrFaults i s).of_eq_next h
  · exact absurd (hframe.fault (by simp [fault_notMem_documentedParts])) hne
  · obtain rfl : c' = c := Option.some.inj hc
    exact ⟨rfl, fun hfetch => hcause (congrArg some hfetch)⟩

/-- Settles O46: the only cycles that record a fault are a fetch outside memory and an instruction's own fault. -/
theorem faultsArePrecise : Obligations.FaultsArePrecise := by
  intro s t c ht hs hc
  have hne := fault_ne_of_not_faulted hs hc
  rcases step_cases s with ⟨-, hstep, -⟩ | ⟨-, -, hstep, -⟩ | ⟨-, -, -, hstep, -⟩ | ⟨-, hfetch, hstep, hout⟩ |
    ⟨-, w, v, -, -, hstep, -⟩ | ⟨-, w, i, hfetch, hd, hstep, hout⟩
  · cases hstep.symm.trans ht
    exact absurd rfl hne
  · cases hstep.symm.trans ht
    exact absurd rfl hne
  · cases hstep.symm.trans ht
    exact absurd ((keyWaitScan_frame s).fault (by simp)) hne
  · cases hstep.symm.trans ht
    obtain rfl : Fault.fetchOutOfRange = c := Option.some.inj hc
    exact ⟨rfl, rfl, hout, .inl ⟨hfetch, rfl, rfl⟩⟩
  · cases hstep.symm.trans ht
    exact absurd s.advance_fault hne
  · have hexec := hstep.symm.trans ht
    obtain ⟨rfl, hcause⟩ := exec_fault_precise hexec hs hc
    exact ⟨rfl, rfl, hout.trans (congrArg (executeOutcome w) hexec),
      .inr ⟨w, hfetch, hcause, encodeOfDecodeIsIdentity w i hd⟩⟩

end Sys2Proof.Machine

/-! ## O47: how long a fault stays -/

namespace Sys2Proof.Machine

variable {s t : State} {e : Event}

/-- What events other than a reset may change in a faulted core (R204). -/
def writableWhileFaulted : List Part := [.dt, .st, .keys, .drawFlag, .paused]

theorem step_eq_self_of_faulted (hf : s.faulted = true) : step s = .next s := by
  cases hp : s.paused with
  | true => exact (step_of_paused hp).1
  | false => exact (step_of_faulted hp hf).1

theorem applyHostOp_frame_of_not_clearsFault {op : HostOp} (h : ¬ clearsFault (.host op)) (s : State) :
    SameOutside writableWhileFaulted s (applyHostOp op s) := by
  cases op with
  | updateTimers => exact (updateTimers_frame s).mono (by decide)
  | keyDown k => exact (writeKey_frame true k s).mono (by decide)
  | keyUp k => exact (writeKey_frame false k s).mono (by decide)
  | ackDraw => exact (ackDraw_frame s).mono (by decide)
  | setPaused b => exact (setPaused_frame b s).mono (by decide)
  | reset => exact absurd trivial h
  | loadRom bytes =>
    rw [applyHostOp, loadRom_of_lt (Nat.lt_of_not_le h)]
    exact .rfl' s

theorem applyEvent_frame_of_faulted (hf : s.faulted = true) (h : ¬ clearsFault e) :
    Answers (applyEvent e s) (SameOutside writableWhileFaulted s) := by
  cases e with
  | cycle => exact ⟨s, step_eq_self_of_faulted hf, .rfl' s⟩
  | host op => exact .next (applyHostOp_frame_of_not_clearsFault h s)

theorem SameOutside.fault_of_writableWhileFaulted (h : SameOutside writableWhileFaulted s t) : t.fault = s.fault :=
  h.fault (by decide)

/-- Settles O47: the frame from the first state leaves the record, so every state of the run is faulted, and the next
event keeps the frame. -/
theorem faultIsStickyUntilReset : Obligations.FaultIsStickyUntilReset := by
  intro es s hf hes
  have hstep (e) (he : e ∈ es) (t) (ht : SameOutside writableWhileFaulted s t) :
      Answers (applyEvent e t) (SameOutside writableWhileFaulted s) := by
    have htf : t.faulted = true := by rwa [State.faulted, ht.fault_of_writableWhileFaulted]
    exact (applyEvent_frame_of_faulted htf (hes e he)).mono fun _ => ht.trans
  obtain ⟨t, hrun, ht⟩ := runEvents_answers hstep (.rfl' s)
  exact ⟨t, hrun, ht.fault_of_writableWhileFaulted, ht⟩

end Sys2Proof.Machine
end
